-- ==== Sys2Proof/Word.lean ====
section
/-! DEFINITION. The two word types of the MFC (spec 00_scope.md R10): every value is unsigned. -/

namespace Sys2Proof

/-- A byte: bit 0 the least significant, bit 7 the most significant (R10). -/
abbrev Byte := BitVec 8

/-- A 16-bit register of 10_state.md R20. -/
abbrev Word16 := BitVec 16

end Sys2Proof
end

