-- ==== Sys2Proof/Config.lean ====
section
/-! DEFINITION. The fixed constants of 00_scope.md R5, the parameter of R6, and the free values of
10_state.md R38 (what RESET leaves unspecified). -/

namespace Sys2Proof.Config

/-- `FRAME_BOUNDARY`: the sentinel that starts every frame (R5). -/
abbrev frameBoundary : Byte := 0x7E#8

/-- `CONTROL_ESCAPE`: the sentinel that introduces an escaped byte (R5). -/
abbrev controlEscape : Byte := 0x7D#8

/-- `ESCAPE_XOR`: XORed onto an escaped byte (R5). -/
abbrev escapeXor : Byte := 0x20#8

/-- `CRC_POLY`: the polynomial in reflected form (R5). -/
abbrev crcPoly : Word16 := 0xA001#16

/-- `CRC_INIT`: what a CRC register holds before the first byte of a frame (R5). -/
abbrev crcInit : Word16 := 0xFFFF#16

/-- `LEN_LONG_FLAG`: bit 7 of the first length byte (R5). -/
abbrev lenLongFlag : Byte := 0x80#8

/-- The value at which `bytes_received` saturates (10_state.md R42). -/
abbrev countLimit : Word16 := 0xFFFF#16

/-- `RETURN_BAD_PACKET_SIZE` (R5). -/
abbrev returnBadPacketSize : Byte := 6#8

/-- `RETURN_BAD_CRC` (R5). -/
abbrev returnBadCrc : Byte := 7#8

/-- The "generic error" code of 60_exceptions.md R221; only the environment's dispatcher raises it. -/
abbrev returnGeneralError : Byte := 1#8

/-- The reference value of `MAX_PAYLOAD_LENGTH` (R6). -/
abbrev referenceMaxPayloadLength : Fin 32768 := 2001

/-- FREE VALUE (log 4): what `packet_cmd` holds after the n-th RESET; R38: "unspecified (any 8-bit value)".
DESIGN CHOICE (log 4): it depends on the reset count only, so two instances (60_exceptions.md R239) after equally many RESETs
hold one value, which the spec does not say. -/
opaque freePacketCmd : Nat → Byte

/-- FREE VALUE (log 5): what index `i` of the payload buffer holds after the n-th RESET, until it is
stored to; R38: "unspecified (any 8-bit value each)". DESIGN CHOICE (log 5): it depends on the reset count and the index
only, so two instances (60_exceptions.md R239) after equally many RESETs agree on it, which the spec does not say. -/
opaque freePayloadByte : Nat → Nat → Byte

end Sys2Proof.Config

namespace Sys2Proof

/-- What is fixed when an MFC is built (10_state.md R34). `MAX_PAYLOAD_LENGTH` is constrained to
0 .. 32767 by R6. -/
structure Config where
  maxPayloadLength : Fin 32768
  deriving DecidableEq, Repr

end Sys2Proof
end

