-- ==== Sys2Proof/Machine/Crc.lean ====
section
/-! DEFINITION. The CRC-16 generator (43_crc16.md), one pure update function. -/

namespace Sys2Proof.Machine

/-- One of the eight shifts of R190: right by one, the polynomial XORed in if the bit shifted out was 1. -/
def crcShift (c : Word16) : Word16 :=
  if c.getLsbD 0 then (c >>> 1) ^^^ Config.crcPoly else c >>> 1

/-- `k` shifts. -/
def crcShifts : Nat → Word16 → Word16
  | 0, c => c
  | k + 1, c => crcShifts k (crcShift c)

/-- `crc16_update(c, b)` (R190): `b` into the low byte, then eight shifts. -/
def crc16Update (c : Word16) (b : Byte) : Word16 :=
  crcShifts 8 (c ^^^ b.setWidth 16)

/-- A sequence folded into a CRC register, the first byte first (R192). -/
def crcFold (c : Word16) (m : List Byte) : Word16 :=
  m.foldl crc16Update c

/-- `crc16(M)` (R192): no final XOR. -/
def crc16 (m : List Byte) : Word16 :=
  crcFold Config.crcInit m

end Sys2Proof.Machine
end

