-- ==== Sys2Proof/Syntax.lean ====
section
/-! DEFINITION. The instructions (one constructor per row of spec/opcode_table.json), the words that carry
them, and the inputs the environment issues. -/

namespace Sys2Proof

/-- The decoder's phase between operations (42_packet_decoder.md R152). -/
inductive Phase where
  | drop
  | idle
  | len1
  | len2
  | payload
  | crc
  | overrun
  deriving DecidableEq, Repr

/-- Which of the two tests after the count holds (42_packet_decoder.md R165, R166). -/
inductive CountTest where
  | neither
  | oversize
  | complete
  deriving DecidableEq, Repr

/-- One constructor per row of spec/opcode_table.json, in the table's order. -/
inductive Instr where
  /-- `RX.FLAG` (R153): an unescaped raw 0x7E. -/
  | rxFlag
  /-- `RX.ESC` (R154): a raw 0x7D. -/
  | rxEsc
  /-- `RX.UNESC` (R155): the raw byte after an escape. -/
  | rxUnesc (b : Byte)
  /-- `RX.LIT` (R155): any other raw byte. -/
  | rxLit (b : Byte)
  /-- `ENC.ESC` (R110), the row of the logical byte 0x7E. -/
  | encEsc7E
  /-- `ENC.ESC` (R110), the row of the logical byte 0x7D. -/
  | encEsc7D
  /-- `ENC.LIT` (R110): any other logical byte. -/
  | encLit (b : Byte)
  /-- `ESC.PAIR.7E` (R81): the raw pair 7D 5E. -/
  | escPair7E
  /-- `ESC.PAIR.7D` (R81): the raw pair 7D 5D. -/
  | escPair7D
  /-- `LEN.SHORT` (R84): one length byte, `N` its low seven bits. -/
  | lenShort (n : BitVec 7)
  /-- `LEN.LONG` (R85): two length bytes, `N[14:8]` and `N[7:0]`. -/
  | lenLong (nHi : BitVec 7) (nLo : Byte)
  /-- `CMD.REQUEST` (R83): a command byte with bit 7 set. -/
  | cmdRequest (c : BitVec 7)
  /-- `CMD.REPLY` (R83): a command byte with bit 7 clear. -/
  | cmdReply (c : BitVec 7)
  /-- `CMD.STD.80` (R91): protocol name. -/
  | cmdStd80
  /-- `CMD.STD.81` (R91): protocol version. -/
  | cmdStd81
  /-- `CMD.STD.82` (R91): device name. -/
  | cmdStd82
  /-- `CMD.STD.83` (R91): manufacturer. -/
  | cmdStd83
  /-- `CMD.STD.84` (R91): hardware version. -/
  | cmdStd84
  /-- `CMD.STD.85` (R91): software version. -/
  | cmdStd85
  /-- `CMD.STD.86` (R91): URL. -/
  | cmdStd86
  /-- `RX.CMD` (R158): the logical byte `v` in phase IDLE. -/
  | rxCmd (v : Byte)
  /-- `RX.LEN1` (R159): the logical byte `v` in phase LEN1. -/
  | rxLen1 (v : Byte)
  /-- `RX.LEN2` (R160): the logical byte `v` in phase LEN2. -/
  | rxLen2 (v : Byte)
  /-- `RX.PAYLOAD` (R161): the logical byte `v` in phase PAYLOAD. -/
  | rxPayload (v : Byte)
  /-- `RX.CRC` (R162): the logical byte `v` in phase CRC. -/
  | rxCrc (v : Byte)
  /-- `RX.OVERRUN` (R163): the logical byte `v` in phase OVERRUN. -/
  | rxOverrun (v : Byte)
  /-- `RX.DROP` (R156): the logical byte `v` in phase DROP. -/
  | rxDrop (v : Byte)
  /-- `RX.OVERSIZE` (R165): step 8 of R150, after the count. -/
  | rxOversize
  /-- `RX.COMPLETE` (R167): step 9 of R150, after the count. -/
  | rxComplete
  /-- `RESET` (R200). -/
  | reset (crcEnabled : Bool)
  /-- `BUF.APPEND` (R202). -/
  | bufAppend (b : Byte)
  /-- `TX.FRAME` (R130). -/
  | txFrame (cmd : Byte)
  /-- `RX.BYTE` (R150). -/
  | rxByte (b : Byte)
  /-- `ENC.BYTE` (R110). -/
  | encByte (b : Byte)
  /-- `DEC.BYTE` (R111). -/
  | decByte (b : Byte)
  /-- `CRC16.UPDATE` (R190): `b` folded into the CRC value `c`. -/
  | crc16Update (c : Word16) (b : Byte)
  deriving DecidableEq, Repr

/-- Where a word is offered: the `format` column of spec/opcode_table.json (30_encoding.md R100), with
the formats that have no bit pattern (PHASE, OP, FUNC) split by what their `encoding` column names. -/
inductive Port where
  | raw8
  | log8
  | esc16
  | len1
  | cmd8
  | phase
  | countTest
  | reset
  | bufAppend
  | txFrame
  | rxByte
  | encByte
  | decByte
  | crc16Update
  deriving DecidableEq, Repr

/-- An encoded instruction: the port it is offered at and its bytes, the first one first. -/
structure CodeWord where
  port : Port
  bytes : List Byte
  deriving DecidableEq, Repr

/-- What of the decoder's state selects among the rows of one format: `un_escaping` for RAW8
(30_encoding.md R94), the phase and the tests after the count for PHASE (R152, R165, R166). -/
structure Selector where
  unEscaping : Bool
  phase : Phase
  countTest : CountTest
  deriving DecidableEq, Repr

/-- What the environment may do to the MFC apart from its operations (44_system_ops.md R203, R207,
R208). None is a row of the opcode table. -/
inductive EnvAction where
  /-- `read_u8()` (R207). -/
  | readU8
  /-- `read_u16()` (R207). -/
  | readU16
  /-- `read_f32()` (R207): four bytes; the float is the environment's reading of them. -/
  | readF32
  /-- `read_array(dst, n)` (R207). -/
  | readArray (n : Nat)
  /-- `read_string()` (R207). -/
  | readString
  /-- The Dispatcher clears bit 7 of `packet_cmd` in place (R208). -/
  | clearRequestBit
  /-- The Dispatcher strips the return code, `payload_length -= 1` (R208). -/
  | stripReturnCode
  /-- `serialize(bytes, n)` (R203): all or nothing. -/
  | serialize (bytes : List Byte)
  deriving DecidableEq, Repr

/-- One thing the environment has issued and the machine has not yet taken (log 6). -/
inductive Input where
  | word (w : CodeWord)
  | act (a : EnvAction)
  deriving DecidableEq, Repr

end Sys2Proof
end

