-- ==== Sys2Proof/WellFormed.lean ====
section
/-! DEFINITION. Which instruction terms are instructions: where rows of one format overlap, the row of
lower `priority` number takes the value (30_encoding.md R94, R95, R100), so the later row never holds it. -/

namespace Sys2Proof

/-- Whether a raw byte is one of the two values the classes RX.FLAG and RX.ESC, or ENC.ESC, take. -/
def isSentinel (b : Byte) : Bool :=
  b == Config.frameBoundary || b == Config.controlEscape

/-- The check. RX.UNESC: R94 order 2 takes 0x7D before it. RX.LIT: orders 1 and 2 take 0x7E and 0x7D.
ENC.LIT: R95. CMD.REQUEST: the table's priority 1 rows take 0x80 .. 0x86 (R91). -/
def Instr.wellFormed : Instr → Bool
  | .rxFlag => true
  | .rxEsc => true
  | .rxUnesc b => b != Config.controlEscape
  | .rxLit b => !isSentinel b
  | .encEsc7E => true
  | .encEsc7D => true
  | .encLit b => !isSentinel b
  | .escPair7E => true
  | .escPair7D => true
  | .lenShort _ => true
  | .lenLong _ _ => true
  | .cmdRequest c => decide (6 < c.toNat)
  | .cmdReply _ => true
  | .cmdStd80 => true
  | .cmdStd81 => true
  | .cmdStd82 => true
  | .cmdStd83 => true
  | .cmdStd84 => true
  | .cmdStd85 => true
  | .cmdStd86 => true
  | .rxCmd _ => true
  | .rxLen1 _ => true
  | .rxLen2 _ => true
  | .rxPayload _ => true
  | .rxCrc _ => true
  | .rxOverrun _ => true
  | .rxDrop _ => true
  | .rxOversize => true
  | .rxComplete => true
  | .reset _ => true
  | .bufAppend _ => true
  | .txFrame _ => true
  | .rxByte _ => true
  | .encByte _ => true
  | .decByte _ => true
  | .crc16Update _ _ => true

/-- Whether the decoder's state selects the row: the `when` and `encoding` columns of the table. -/
def Instr.selectedBy (sel : Selector) : Instr → Bool
  | .rxFlag => !sel.unEscaping
  | .rxEsc => true
  | .rxUnesc _ => sel.unEscaping
  | .rxLit _ => !sel.unEscaping
  | .encEsc7E => true
  | .encEsc7D => true
  | .encLit _ => true
  | .escPair7E => true
  | .escPair7D => true
  | .lenShort _ => true
  | .lenLong _ _ => true
  | .cmdRequest _ => true
  | .cmdReply _ => true
  | .cmdStd80 => true
  | .cmdStd81 => true
  | .cmdStd82 => true
  | .cmdStd83 => true
  | .cmdStd84 => true
  | .cmdStd85 => true
  | .cmdStd86 => true
  | .rxCmd _ => sel.phase == .idle
  | .rxLen1 _ => sel.phase == .len1
  | .rxLen2 _ => sel.phase == .len2
  | .rxPayload _ => sel.phase == .payload
  | .rxCrc _ => sel.phase == .crc
  | .rxOverrun _ => sel.phase == .overrun
  | .rxDrop _ => sel.phase == .drop
  | .rxOversize => sel.countTest == .oversize
  | .rxComplete => sel.countTest == .complete
  | .reset _ => true
  | .bufAppend _ => true
  | .txFrame _ => true
  | .rxByte _ => true
  | .encByte _ => true
  | .decByte _ => true
  | .crc16Update _ _ => true

end Sys2Proof
end

