-- ==== Sys2Proof/Decode.lean ====
section
/-! DEFINITION. The decoder, total on any word and any state, and after it the encoder. The classes are
those of 30_encoding.md R94, R95, R81, R84, R85, R83, R91 and 42_packet_decoder.md R152; the words of the
rows to which the spec gives no bits (PHASE, OP, FUNC) are the model's own (log 7). -/

namespace Sys2Proof

/-- `lo8(v) = v[7:0]` (R10). -/
def lo8 (v : Word16) : Byte := v.setWidth 8

/-- `hi8(v) = v[15:8]` (R10). -/
def hi8 (v : Word16) : Byte := (v >>> 8).setWidth 8

/-- The 16-bit value with the given high and low bytes. -/
def join16 (hi lo : Byte) : Word16 := hi.setWidth 16 <<< 8 ||| lo.setWidth 16

/-- The byte with bit 7 clear and the given low seven bits (R84, R83). -/
def byteWithBit7Clear (v : BitVec 7) : Byte := v.setWidth 8

/-- The byte with bit 7 set and the given low seven bits (R85, R83). -/
def byteWithBit7Set (v : BitVec 7) : Byte := Config.lenLongFlag ||| v.setWidth 8

/-- Bit 7 of a byte. -/
def bit7 (b : Byte) : Bool := b.getLsbD 7

/-- Why a word is no row's encoding. -/
inductive DecodeReject where
  /-- The word has not the number of bytes its format has. -/
  | wrongLength
  /-- At ESC16: neither 7D 5E nor 7D 5D (R81). -/
  | notAnEscapedPair
  /-- At RESET: the operand is one bit (R200), and the byte is neither 00 nor 01. -/
  | resetOperandNotOneBit
  /-- Neither of the tests after the count holds (R165, R166). -/
  | noCountTestHolds
  deriving DecidableEq, Repr

/-- What the decoder answers. -/
inductive DecodeResult where
  | ok (i : Instr)
  | rejected (r : DecodeReject)
  deriving DecidableEq, Repr

/-- The raw byte's class (R94), tests in the rule's order. -/
def classifyRaw (unEscaping : Bool) (b : Byte) : Instr :=
  if b = Config.frameBoundary ∧ unEscaping = false then .rxFlag
  else if b = Config.controlEscape then .rxEsc
  else if unEscaping then .rxUnesc b
  else .rxLit b

/-- The logical byte's class at the escape encoder (R95). -/
def classifyLogical (b : Byte) : Instr :=
  if b = 0x7E#8 then .encEsc7E
  else if b = 0x7D#8 then .encEsc7D
  else .encLit b

/-- The escaped pairs, first raw byte first (R81). -/
def classifyPair (first second : Byte) : DecodeResult :=
  if first = 0x7D#8 ∧ second = 0x5E#8 then .ok .escPair7E
  else if first = 0x7D#8 ∧ second = 0x5D#8 then .ok .escPair7D
  else .rejected .notAnEscapedPair

/-- The length field (R84, R85): bit 7 of the first byte says whether a second one follows. -/
def classifyLength : List Byte → DecodeResult
  | [b] => if bit7 b then .rejected .wrongLength else .ok (.lenShort (b.setWidth 7))
  | [b, m] => if bit7 b then .ok (.lenLong (b.setWidth 7) m) else .rejected .wrongLength
  | _ => .rejected .wrongLength

/-- The command byte (R83), the seven reserved requests first (R91, the table's priority 1). -/
def classifyCommand (b : Byte) : Instr :=
  if b = 0x80#8 then .cmdStd80
  else if b = 0x81#8 then .cmdStd81
  else if b = 0x82#8 then .cmdStd82
  else if b = 0x83#8 then .cmdStd83
  else if b = 0x84#8 then .cmdStd84
  else if b = 0x85#8 then .cmdStd85
  else if b = 0x86#8 then .cmdStd86
  else if bit7 b then .cmdRequest (b.setWidth 7)
  else .cmdReply (b.setWidth 7)

/-- A logical byte is interpreted by position, never by value (R94, R152). -/
def classifyPhase (p : Phase) (v : Byte) : Instr :=
  match p with
  | .drop => .rxDrop v
  | .idle => .rxCmd v
  | .len1 => .rxLen1 v
  | .len2 => .rxLen2 v
  | .payload => .rxPayload v
  | .crc => .rxCrc v
  | .overrun => .rxOverrun v

/-- The row that the tests after the count select (R165, R166). -/
def classifyCountTest : CountTest → DecodeResult
  | .neither => .rejected .noCountTestHolds
  | .oversize => .ok .rxOversize
  | .complete => .ok .rxComplete

/-- RESET's operand, one bit. -/
def resetOperand (b : Byte) : DecodeResult :=
  if b = 0#8 then .ok (.reset false)
  else if b = 1#8 then .ok (.reset true)
  else .rejected .resetOperandNotOneBit

/-- A format whose word is one byte. -/
def oneByte (f : Byte → DecodeResult) : List Byte → DecodeResult
  | [b] => f b
  | _ => .rejected .wrongLength

/-- The decoder: total on any word, in any state of the selecting registers. -/
def decode (sel : Selector) (w : CodeWord) : DecodeResult :=
  match w.port with
  | .raw8 => oneByte (fun b => .ok (classifyRaw sel.unEscaping b)) w.bytes
  | .log8 => oneByte (fun b => .ok (classifyLogical b)) w.bytes
  | .esc16 =>
    match w.bytes with
    | [first, second] => classifyPair first second
    | _ => .rejected .wrongLength
  | .len1 => classifyLength w.bytes
  | .cmd8 => oneByte (fun b => .ok (classifyCommand b)) w.bytes
  | .phase => oneByte (fun v => .ok (classifyPhase sel.phase v)) w.bytes
  | .countTest =>
    match w.bytes with
    | [] => classifyCountTest sel.countTest
    | _ => .rejected .wrongLength
  | .reset => oneByte resetOperand w.bytes
  | .bufAppend => oneByte (fun b => .ok (.bufAppend b)) w.bytes
  | .txFrame => oneByte (fun b => .ok (.txFrame b)) w.bytes
  | .rxByte => oneByte (fun b => .ok (.rxByte b)) w.bytes
  | .encByte => oneByte (fun b => .ok (.encByte b)) w.bytes
  | .decByte => oneByte (fun b => .ok (.decByte b)) w.bytes
  | .crc16Update =>
    match w.bytes with
    | [cLo, cHi, b] => .ok (.crc16Update (join16 cHi cLo) b)
    | _ => .rejected .wrongLength

/-- The encoder: the word of an instruction. -/
def encode : Instr → CodeWord
  | .rxFlag => ⟨.raw8, [0x7E#8]⟩
  | .rxEsc => ⟨.raw8, [0x7D#8]⟩
  | .rxUnesc b => ⟨.raw8, [b]⟩
  | .rxLit b => ⟨.raw8, [b]⟩
  | .encEsc7E => ⟨.log8, [0x7E#8]⟩
  | .encEsc7D => ⟨.log8, [0x7D#8]⟩
  | .encLit b => ⟨.log8, [b]⟩
  | .escPair7E => ⟨.esc16, [0x7D#8, 0x5E#8]⟩
  | .escPair7D => ⟨.esc16, [0x7D#8, 0x5D#8]⟩
  | .lenShort n => ⟨.len1, [byteWithBit7Clear n]⟩
  | .lenLong nHi nLo => ⟨.len1, [byteWithBit7Set nHi, nLo]⟩
  | .cmdRequest c => ⟨.cmd8, [byteWithBit7Set c]⟩
  | .cmdReply c => ⟨.cmd8, [byteWithBit7Clear c]⟩
  | .cmdStd80 => ⟨.cmd8, [0x80#8]⟩
  | .cmdStd81 => ⟨.cmd8, [0x81#8]⟩
  | .cmdStd82 => ⟨.cmd8, [0x82#8]⟩
  | .cmdStd83 => ⟨.cmd8, [0x83#8]⟩
  | .cmdStd84 => ⟨.cmd8, [0x84#8]⟩
  | .cmdStd85 => ⟨.cmd8, [0x85#8]⟩
  | .cmdStd86 => ⟨.cmd8, [0x86#8]⟩
  | .rxCmd v => ⟨.phase, [v]⟩
  | .rxLen1 v => ⟨.phase, [v]⟩
  | .rxLen2 v => ⟨.phase, [v]⟩
  | .rxPayload v => ⟨.phase, [v]⟩
  | .rxCrc v => ⟨.phase, [v]⟩
  | .rxOverrun v => ⟨.phase, [v]⟩
  | .rxDrop v => ⟨.phase, [v]⟩
  | .rxOversize => ⟨.countTest, []⟩
  | .rxComplete => ⟨.countTest, []⟩
  | .reset false => ⟨.reset, [0#8]⟩
  | .reset true => ⟨.reset, [1#8]⟩
  | .bufAppend b => ⟨.bufAppend, [b]⟩
  | .txFrame cmd => ⟨.txFrame, [cmd]⟩
  | .rxByte b => ⟨.rxByte, [b]⟩
  | .encByte b => ⟨.encByte, [b]⟩
  | .decByte b => ⟨.decByte, [b]⟩
  | .crc16Update c b => ⟨.crc16Update, [lo8 c, hi8 c, b]⟩

/-- At which format a bare word of spec/opcode_table.json is offered. Six formats share the values of one
byte, so the value alone does not say: the row with the most fixed bits takes it, the table's first among
equals (log 15). -/
def tablePort (nbits w : Nat) : Port :=
  if nbits = 16 then .esc16
  else if w = 0x7E ∨ w = 0x7D then .raw8
  else if 0x80 ≤ w ∧ w ≤ 0x86 then .cmd8
  else .len1

/-- The word of the table's number `w`: the first byte of ESC16 stands in bits 15:8 (the table's note);
LEN.LONG has a second byte that the table gives no bits, so it is zero. -/
def tableWord (nbits w : Nat) : CodeWord :=
  match tablePort nbits w with
  | .esc16 => ⟨.esc16, [BitVec.ofNat 8 (w / 256), BitVec.ofNat 8 w]⟩
  | .len1 =>
    if bit7 (BitVec.ofNat 8 w) then ⟨.len1, [BitVec.ofNat 8 w, 0#8]⟩ else ⟨.len1, [BitVec.ofNat 8 w]⟩
  | p => ⟨p, [BitVec.ofNat 8 w]⟩

/-- The state of the selecting registers in which a bare word is read: no escape pending. -/
def tableSelector : Selector := ⟨false, .idle, .neither⟩

/-- What the decoder reads from the table's bare word: a row of 8 or of 16 bits. -/
def decodeTableWord (nbits w : Nat) : Option Instr :=
  if (nbits = 8 ∨ nbits = 16) ∧ w < 2 ^ nbits then
    match decode tableSelector (tableWord nbits w) with
    | .ok i => some i
    | .rejected _ => none
  else none

end Sys2Proof
end

