-- ==== Sys2Proof/Machine/Flags.lean ====
section
/-! DEFINITION. The flags (10_state.md R33): what the escape decoder makes of `un_escaping`
(40_frame_codec.md R111), what `crc_enabled` adds to a frame, and the verdict at COMPLETE (R167). -/

namespace Sys2Proof.Machine

/-- `decode_byte` (R111): the new `un_escaping`, and nothing or one logical byte. -/
def decodeByte (unEscaping : Bool) (b : Byte) : Bool × Option Byte :=
  if b = Config.controlEscape then (true, none)
  else if unEscaping then (false, some (b ^^^ Config.escapeXor))
  else (unEscaping, some b)

/-- `c` of R150: the number of CRC bytes of a frame. -/
def crcLength (crcEnabled : Bool) : Nat :=
  if crcEnabled then 2 else 0

/-- `ok` of R167: the CRC is disabled, or the residue is zero. -/
def frameAccepted (crcEnabled : Bool) (residue : Word16) : Bool :=
  !crcEnabled || residue == 0#16

end Sys2Proof.Machine
end

