-- ==== Sys2Proof/Machine/State.lean ====
section
/-! DEFINITION. The state (10_state.md R20), the output events, the reasons a step can stop, and the
state right after reset (R38). -/

namespace Sys2Proof.Machine

/-- An output event (00_scope.md R11, 60_exceptions.md R220). -/
inductive Event where
  /-- A packet with command byte `cmd` and `n` payload bytes is complete and valid (R204). -/
  | rxPacket (cmd : Byte) (n : Word16)
  /-- The decoder rejected a frame: code 6 oversize, 7 bad CRC (R205). -/
  | rxError (code : Byte)
  /-- An append was refused: code 6 (R206). -/
  | bufError (code : Byte)
  /-- The environment's Dispatcher met a reply with no return code (93 U15); the MFC never raises it. -/
  | dispatchError (code : Byte)
  deriving DecidableEq, Repr

/-- A value that an operation returns (log 11). -/
inductive Result where
  /-- `decode_byte` returned nothing, or one logical byte (R111). -/
  | logical (v : Option Byte)
  /-- `crc16_update` returned a CRC (R190). -/
  | crc (v : Word16)
  /-- A cursor read returned bytes, the one at the cursor first (R207). -/
  | bytes (bs : List Byte)
  deriving DecidableEq, Repr

/-- Why the machine stops with a fault. -/
inductive Fault where
  /-- An index at or above MAX_PAYLOAD_LENGTH, which is no address (20_memory.md R60). Raised by TX.FRAME and
  by the rows that store a payload byte, only in states that no run reaches (R66, R67). Safe (log 9). -/
  | payloadIndexOutOfRange
  deriving DecidableEq, Repr

/-- Why a step has no meaning. -/
inductive Refusal where
  /-- An instruction the model gives no meaning; no arm of exec answers it. Safe. -/
  | notModelled (mnemonic : String)
  /-- The state does not select this row (30_encoding.md R94, R100; 42_packet_decoder.md R152), so there is
  no such instruction here. Raised by the rows of RAW8, LOG8, LEN1, CMD8 and PHASE. Safe (log 8). -/
  | rowNotSelected (mnemonic : String)
  /-- The word is no row's encoding (log 7). Raised by step. Safe. -/
  | undecodable (r : DecodeReject)
  /-- A cursor read past the packet (93 U14: refuse). Raised by the environment's reads. Safe (log 16). -/
  | readPastPacket
  deriving DecidableEq, Repr

/-- The state. The first twelve fields are 10_state.md R20, in its order, and no other; `cfg` is what R34
fixes when the MFC is built; the rest are the model's own (INVENTORY.md, State). -/
structure State where
  /-- `packet_cmd` (R21). -/
  packetCmd : Byte
  /-- `header_length` (R22). -/
  headerLength : BitVec 2
  /-- `payload_length` (R23). -/
  payloadLength : Word16
  /-- `bytes_received` (R24, R42). -/
  bytesReceived : Word16
  /-- `un_escaping` (R25). -/
  unEscaping : Bool
  /-- `rx_crc` (R26). -/
  rxCrc : Word16
  /-- `rx_drop` (R28). -/
  rxDrop : Bool
  /-- `tx_crc` (R27). -/
  txCrc : Word16
  /-- `bytes_written` (R29). -/
  bytesWritten : Word16
  /-- `bytes_read` (R30). -/
  bytesRead : Word16
  /-- The payload buffer (R31): the indices stored to since the last RESET, strictly rising. -/
  payload : List Host.Cell
  /-- `crc_enabled` (R32). -/
  crcEnabled : Bool
  /-- MAX_PAYLOAD_LENGTH (00_scope.md R6). -/
  cfg : Config
  /-- How many RESETs have run: the counter of the free values (log 4, log 5). -/
  resetCount : Nat
  /-- The transmit output sequence (R11), the first byte first (log 10). -/
  emitted : List Byte
  /-- The events raised, the first one first (log 10). -/
  events : List Event
  /-- The values returned, the first one first (log 11). -/
  results : List Result
  /-- What the environment has issued and the machine has not taken, the next one first (log 6). -/
  pending : List Input
  deriving DecidableEq, Repr

/-- Right after reset (R38). R38 leaves `packet_cmd` unspecified (log 4: 0) and takes `crc_enabled` from the
operation's argument (log 3: true); `cfg` is the reference instance (log 2). -/
def State.reset : State where
  packetCmd := 0#8
  headerLength := 2#2
  payloadLength := 0#16
  bytesReceived := 0#16
  unEscaping := false
  rxCrc := Config.crcInit
  rxDrop := false
  txCrc := Config.crcInit
  bytesWritten := 0#16
  bytesRead := 0#16
  payload := []
  crcEnabled := true
  cfg := ⟨Config.referenceMaxPayloadLength⟩
  resetCount := 0
  emitted := []
  events := []
  results := []
  pending := []

end Sys2Proof.Machine
end

