-- ==== Sys2Proof/Machine/Operands.lean ====
section
/-! DEFINITION. The operand forms: the length field and its assembly (30_encoding.md R84 to R87), the command
byte (R83), the buffer index (20_memory.md R61), the total, the phase (42_packet_decoder.md R152) and the
tests after the count (R165, R166). -/

namespace Sys2Proof.Machine

/-- `encode_byte` (R110): the raw bytes of one logical byte. -/
def encodeByte (b : Byte) : List Byte :=
  if b = Config.frameBoundary ∨ b = Config.controlEscape then
    [Config.controlEscape, b ^^^ Config.escapeXor]
  else [b]

/-- The length bytes of `L` (R87, R134): one if `L < 128`, else two, high part first. -/
def lengthBytes (l : Word16) : List Byte :=
  if l.toNat < 128 then [lo8 l]
  else [Config.lenLongFlag ||| (l >>> 8).setWidth 8, lo8 l]

/-- What the first length byte leaves in `header_length` (R159). -/
def headerLengthOf (v : Byte) : BitVec 2 :=
  if bit7 v then 3#2 else 2#2

/-- What the first length byte leaves in `payload_length` (R159): all of `N`, or its high part. -/
def firstLengthOf (v : Byte) : Word16 :=
  if bit7 v then (v &&& 0x7F#8).setWidth 16 <<< 8 else v.setWidth 16

/-- MAX_PAYLOAD_LENGTH as a number (00_scope.md R6). -/
def State.maxLen (s : State) : Nat := s.cfg.maxPayloadLength.val

/-- The buffer index of the decoder's store, `bytes_received - header_length` (20_memory.md R61). -/
def State.payloadIndex (s : State) : Nat := s.bytesReceived.toNat - s.headerLength.toNat

/-- The total (00_scope.md R14, 42_packet_decoder.md R166). -/
def State.total (s : State) : Nat :=
  s.payloadLength.toNat + s.headerLength.toNat + crcLength s.crcEnabled

/-- The phase the next logical byte is handled in (R152), first match wins. -/
def State.phase (s : State) : Phase :=
  if s.rxDrop then .drop
  else if s.bytesReceived = 0#16 then .idle
  else if s.bytesReceived = 1#16 then .len1
  else if s.bytesReceived = 2#16 ∧ s.headerLength = 3#2 then .len2
  else if s.headerLength.toNat ≤ s.bytesReceived.toNat ∧ s.payloadIndex < s.payloadLength.toNat then .payload
  else if s.crcEnabled ∧ s.payloadLength.toNat + s.headerLength.toNat ≤ s.bytesReceived.toNat ∧
      s.bytesReceived.toNat < s.payloadLength.toNat + s.headerLength.toNat + 2 then .crc
  else .overrun

/-- Which test after the count holds, step 8 before step 9 (R151). -/
def State.countTest (s : State) : CountTest :=
  if s.bytesReceived.toNat = s.headerLength.toNat ∧ s.maxLen < s.payloadLength.toNat then .oversize
  else if s.bytesReceived.toNat = s.total then .complete
  else .neither

/-- The registers that select among rows (R94, R152). -/
def State.selector (s : State) : Selector := ⟨s.unEscaping, s.phase, s.countTest⟩

end Sys2Proof.Machine
end

