-- ==== Sys2Proof/Machine/Ops.lean ====
section
/-! DEFINITION. The named operations: the payload buffer, the outputs, raising an event, and the shared
steps of RX.BYTE (42_packet_decoder.md R150) and TX.FRAME (41_packet_encoder.md R130). -/

namespace Sys2Proof.Machine

/-! ## The payload buffer (20_memory.md) -/

/-- The canonical form: indices strictly rising. An unlisted index reads as no value, so no entry can
equal it. -/
abbrev Memory.wf (m : List Host.Cell) : Prop := m.Pairwise (fun a b => a.1 < b.1)

/-- What is stored at an index; none where nothing has been stored since RESET. -/
def Memory.read (m : List Host.Cell) (i : Nat) : Option Byte :=
  match m with
  | [] => none
  | c :: rest => if c.1 = i then some c.2 else Memory.read rest i

/-- `MemWrite(i, 1, v)` (R11): in its place among the rising indices. -/
def Memory.write (m : List Host.Cell) (i : Nat) (v : Byte) : List Host.Cell :=
  match m with
  | [] => [(i, v)]
  | c :: rest =>
    if i < c.1 then (i, v) :: c :: rest
    else if i = c.1 then (i, v) :: rest
    else c :: Memory.write rest i v

/-- `MemRead(i, 1)` (R11): an index nothing has been stored to since RESET holds a free value (log 5). -/
def State.payloadByte (s : State) (i : Nat) : Byte :=
  (Memory.read s.payload i).getD (Config.freePayloadByte s.resetCount i)

/-- The bytes at indices `at, at+1, ..., at+n-1`, in that order. -/
def State.payloadSlice (s : State) (start n : Nat) : List Byte :=
  (List.range n).map (fun k => s.payloadByte (start + k))

/-- Store one byte in the payload buffer. -/
def storePayload (i : Nat) (v : Byte) (s : State) : State :=
  { s with payload := Memory.write s.payload i v }

/-! ## Outputs -/

/-- `emit_raw` (R11), one byte after another. -/
def emitRaw (bs : List Byte) (s : State) : State :=
  { s with emitted := s.emitted ++ bs }

/-- `raise` and `deliver` (R11): an output; the operation still completes. -/
def raise (e : Event) (s : State) : State :=
  { s with events := s.events ++ [e] }

/-- A value is returned (log 11). -/
def answer (r : Result) (s : State) : State :=
  { s with results := s.results ++ [r] }

/-! ## Selection -/

/-- A row's action where the state selects the row (log 8). -/
def whenSelected (selected : Bool) (mnemonic : String) (act : Host.Outcome State Fault Refusal) :
    Host.Outcome State Fault Refusal :=
  if selected then act else .refused (.rowNotSelected mnemonic)

/-! ## The steps of RX.BYTE (R150) -/

/-- Step 1's actions (R153): what an unescaped boundary resets. -/
def boundaryReset (s : State) : State :=
  { s with bytesReceived := 0#16, rxCrc := Config.crcInit, rxDrop := false }

/-- Step 5 (R157): the logical byte folded into `rx_crc`. -/
def foldRxCrc (v : Byte) (s : State) : State :=
  { s with rxCrc := crc16Update s.rxCrc v }

/-- Step 6, IDLE (R158). -/
def takeCommand (v : Byte) (s : State) : State :=
  { s with packetCmd := v }

/-- Step 6, LEN1 (R159). -/
def takeFirstLength (v : Byte) (s : State) : State :=
  { s with headerLength := headerLengthOf v, payloadLength := firstLengthOf v }

/-- Step 6, LEN2 (R160). -/
def takeSecondLength (v : Byte) (s : State) : State :=
  { s with payloadLength := s.payloadLength + v.setWidth 16 }

/-- Step 7 (R164): the count, saturating (10_state.md R42). -/
def countByte (s : State) : State :=
  if s.bytesReceived.toNat < 0xFFFF then { s with bytesReceived := s.bytesReceived + 1#16 } else s

/-- Taking the oversize exception, step 8's actions (R165, 60_exceptions.md R223, R228). -/
def rejectOversize (s : State) : State :=
  raise (.rxError Config.returnBadPacketSize)
    { s with bytesReceived := 0#16, rxCrc := Config.crcInit, rxDrop := true }

/-- The event of a completed frame (R167): delivery, or the bad-CRC exception (60_exceptions.md R222). -/
def completionEvent (s : State) : Event :=
  if frameAccepted s.crcEnabled s.rxCrc then .rxPacket s.packetCmd s.payloadLength
  else .rxError Config.returnBadCrc

/-- Step 9's actions (R167). -/
def completeFrame (s : State) : State :=
  raise (completionEvent s)
    { s with bytesReceived := 0#16, bytesRead := 0#16, bytesWritten := 0#16, rxCrc := Config.crcInit }

/-- Steps 8 and 9: the tests after the count. -/
def afterCount (s : State) : State :=
  match s.countTest with
  | .neither => s
  | .oversize => rejectOversize s
  | .complete => completeFrame s

/-- Steps 7 to 9. -/
def endByte (s : State) : State := afterCount (countByte s)

/-- Steps 5 to 9 for a byte that is stored: phase PAYLOAD (R161). The store comes before the count. -/
def storeLogical (v : Byte) (s : State) : Host.Outcome State Fault Refusal :=
  if s.payloadIndex < s.maxLen then
    .next (endByte (storePayload s.payloadIndex v (foldRxCrc v s)))
  else .fault .payloadIndexOutOfRange

/-- Steps 4 to 9 of R150, in its order: what becomes of a logical byte. -/
def acceptLogical (v : Byte) (s : State) : Host.Outcome State Fault Refusal :=
  if s.rxDrop then .next s
  else if s.bytesReceived = 0#16 then .next (endByte (takeCommand v (foldRxCrc v s)))
  else if s.bytesReceived = 1#16 then .next (endByte (takeFirstLength v (foldRxCrc v s)))
  else if s.bytesReceived = 2#16 ∧ s.headerLength = 3#2 then
    .next (endByte (takeSecondLength v (foldRxCrc v s)))
  else if s.payloadIndex < s.payloadLength.toNat then storeLogical v s
  else .next (endByte (foldRxCrc v s))

/-- Steps 2 to 9 of R150: the escape decoder, then the logical byte if there is one. -/
def acceptRaw (b : Byte) (s : State) : Host.Outcome State Fault Refusal :=
  match decodeByte s.unEscaping b with
  | (flag, none) => .next { s with unEscaping := flag }
  | (flag, some v) => acceptLogical v { s with unEscaping := flag }

/-- R150 whole: the boundary test first. -/
def receiveRaw (b : Byte) (s : State) : Host.Outcome State Fault Refusal :=
  if b = Config.frameBoundary ∧ s.unEscaping = false then .next (boundaryReset s)
  else acceptRaw b s

/-- One step after another, stopping at the first that does not go on. -/
def andThen (o : Host.Outcome State Fault Refusal) (f : State → Host.Outcome State Fault Refusal) :
    Host.Outcome State Fault Refusal :=
  match o with
  | .next s => f s
  | .fault r => .fault r
  | .refused r => .refused r

/-! ## The steps of TX.FRAME (R130) -/

/-- One logical byte sent: folded into `tx_crc` exactly once (R139), then escaped and emitted. -/
def sendLogical (s : State) (b : Byte) : State :=
  emitRaw (encodeByte b) { s with txCrc := crc16Update s.txCrc b }

/-- Logical bytes sent one after another. -/
def sendAll (bs : List Byte) (s : State) : State :=
  bs.foldl sendLogical s

/-- Step 7 (R136): the CRC bytes, low first, not folded. -/
def sendCrc (s : State) : State :=
  if s.crcEnabled then emitRaw (encodeByte (lo8 s.txCrc) ++ encodeByte (hi8 s.txCrc)) s else s

/-- Steps 1 to 3 (R132, R133). -/
def startFrame (cmd : Byte) (s : State) : State :=
  emitRaw [Config.frameBoundary]
    { s with packetCmd := cmd, payloadLength := s.bytesWritten, txCrc := Config.crcInit }

/-- Step 8 (R137). -/
def endFrame (s : State) : State :=
  { s with payloadLength := 0#16, bytesWritten := 0#16 }

/-- The bytes that step 6 loads (R135): indices 0, 1, ..., `payload_length` - 1. -/
def State.payloadToSend (s : State) : List Byte := s.payloadSlice 0 s.payloadLength.toNat

/-- Steps 4 to 6: command, length, payload. -/
def sendBody (s : State) : State :=
  sendAll s.payloadToSend (sendAll (lengthBytes s.payloadLength) (sendLogical s s.packetCmd))

end Sys2Proof.Machine
end

