-- ==== Sys2Proof/Machine/Functions.lean ====
section
/-! DEFINITION. The three byte functions the operations are built from (format FUNC; 30_encoding.md R100).
What a function returns is recorded in `results` (log 11). -/

namespace Sys2Proof.Machine

/-- ENC.BYTE(b) (40_frame_codec.md R110). -/
def execEncByte (b : Byte) (s : State) : Host.Outcome State Fault Refusal :=
  .next (emitRaw (encodeByte b) s)

/-- DEC.BYTE(b) (40_frame_codec.md R111): the flag, and nothing or one logical byte. A 0x7E is not special. -/
def execDecByte (b : Byte) (s : State) : Host.Outcome State Fault Refusal :=
  match decodeByte s.unEscaping b with
  | (flag, v) => .next (answer (.logical v) { s with unEscaping := flag })

/-- CRC16.UPDATE(c, b) (43_crc16.md R190): pure. -/
def execCrc16Update (c : Word16) (b : Byte) (s : State) : Host.Outcome State Fault Refusal :=
  .next (answer (.crc (crc16Update c b)) s)

end Sys2Proof.Machine
end

