-- ==== Sys2Proof/Machine/HeaderFields.lean ====
section
/-! DEFINITION. The header fields as the decoder takes them: the length formats (LEN1) in phase LEN1 and the
command formats (CMD8) in phase IDLE. A byte is a length or a command by its position only (30_encoding.md R94). -/

namespace Sys2Proof.Machine

/-- A logical byte in the position of the first length byte. -/
def takeLength (mnemonic : String) (v : Byte) (s : State) : Host.Outcome State Fault Refusal :=
  whenSelected (s.phase == .len1) mnemonic (acceptLogical v s)

/-- A logical byte in the position of the command byte. -/
def takeCommandByte (mnemonic : String) (v : Byte) (s : State) : Host.Outcome State Fault Refusal :=
  whenSelected (s.phase == .idle) mnemonic (acceptLogical v s)

/-- LEN.SHORT (30_encoding.md R84, decoded by R159). -/
def execLenShort (n : BitVec 7) (s : State) : Host.Outcome State Fault Refusal :=
  takeLength "LEN.SHORT" (byteWithBit7Clear n) s

/-- LEN.LONG (R85, decoded by R159 and R160): the first length byte, then the second (log 13). -/
def execLenLong (nHi : BitVec 7) (nLo : Byte) (s : State) : Host.Outcome State Fault Refusal :=
  andThen (takeLength "LEN.LONG" (byteWithBit7Set nHi) s) (acceptLogical nLo)

/-- CMD.REQUEST (R83): stored and delivered unchanged, no meaning attached (R90). -/
def execCmdRequest (c : BitVec 7) (s : State) : Host.Outcome State Fault Refusal :=
  takeCommandByte "CMD.REQUEST" (byteWithBit7Set c) s

/-- CMD.REPLY (R83). -/
def execCmdReply (c : BitVec 7) (s : State) : Host.Outcome State Fault Refusal :=
  takeCommandByte "CMD.REPLY" (byteWithBit7Clear c) s

/-- CMD.STD.80 (R91): handled outside the MFC, which treats all 256 values alike (R90). -/
def execCmdStd80 (s : State) : Host.Outcome State Fault Refusal :=
  takeCommandByte "CMD.STD.80" 0x80#8 s

/-- CMD.STD.81 (R91). -/
def execCmdStd81 (s : State) : Host.Outcome State Fault Refusal :=
  takeCommandByte "CMD.STD.81" 0x81#8 s

/-- CMD.STD.82 (R91). -/
def execCmdStd82 (s : State) : Host.Outcome State Fault Refusal :=
  takeCommandByte "CMD.STD.82" 0x82#8 s

/-- CMD.STD.83 (R91). -/
def execCmdStd83 (s : State) : Host.Outcome State Fault Refusal :=
  takeCommandByte "CMD.STD.83" 0x83#8 s

/-- CMD.STD.84 (R91). -/
def execCmdStd84 (s : State) : Host.Outcome State Fault Refusal :=
  takeCommandByte "CMD.STD.84" 0x84#8 s

/-- CMD.STD.85 (R91). -/
def execCmdStd85 (s : State) : Host.Outcome State Fault Refusal :=
  takeCommandByte "CMD.STD.85" 0x85#8 s

/-- CMD.STD.86 (R91). -/
def execCmdStd86 (s : State) : Host.Outcome State Fault Refusal :=
  takeCommandByte "CMD.STD.86" 0x86#8 s

end Sys2Proof.Machine
end

