-- ==== Sys2Proof/Machine/LogicalClasses.lean ====
section
/-! DEFINITION. The logical-byte classes at the escape encoder (format LOG8; 30_encoding.md R95). -/

namespace Sys2Proof.Machine

/-- ENC.ESC for the logical byte 0x7E: emits 7D 5E (40_frame_codec.md R110). -/
def execEncEsc7E (s : State) : Host.Outcome State Fault Refusal :=
  .next (emitRaw [0x7D#8, 0x5E#8] s)

/-- ENC.ESC for the logical byte 0x7D: emits 7D 5D (R110). -/
def execEncEsc7D (s : State) : Host.Outcome State Fault Refusal :=
  .next (emitRaw [0x7D#8, 0x5D#8] s)

/-- ENC.LIT (R110): emits `b`; the two values of ENC.ESC are not of this class. -/
def execEncLit (b : Byte) (s : State) : Host.Outcome State Fault Refusal :=
  whenSelected (!isSentinel b) "ENC.LIT" (.next (emitRaw [b] s))

end Sys2Proof.Machine
end

