-- ==== Sys2Proof/Machine/Operations.lean ====
section
/-! DEFINITION. The four operations of the MFC (format OP; 44_system_ops.md R201). -/

namespace Sys2Proof.Machine

/-- RESET(c) (44_system_ops.md R200): every register at its value of 10_state.md R38. `packet_cmd` and every
buffer byte become free values of the new reset count (log 4, log 5). Nothing is emitted or raised. -/
def execReset (c : Bool) (s : State) : Host.Outcome State Fault Refusal :=
  .next { s with
    packetCmd := Config.freePacketCmd (s.resetCount + 1)
    headerLength := 2#2
    payloadLength := 0#16
    bytesReceived := 0#16
    unEscaping := false
    rxCrc := Config.crcInit
    rxDrop := false
    txCrc := Config.crcInit
    bytesWritten := 0#16
    bytesRead := 0#16
    payload := []
    crcEnabled := c
    resetCount := s.resetCount + 1 }

/-- One byte appended (R202): BufError(6) and nothing else on a full buffer. -/
def appendByte (b : Byte) (s : State) : State :=
  if s.maxLen ≤ s.bytesWritten.toNat then raise (.bufError Config.returnBadPacketSize) s
  else { storePayload s.bytesWritten.toNat b s with bytesWritten := s.bytesWritten + 1#16 }

/-- BUF.APPEND(b) (R202). -/
def execBufAppend (b : Byte) (s : State) : Host.Outcome State Fault Refusal :=
  .next (appendByte b s)

/-- TX.FRAME(cmd) (41_packet_encoder.md R130), the document's eight steps. `bytes_written` beyond the buffer,
which no run reaches (10_state.md R37), would load from no address (log 9). -/
def execTxFrame (cmd : Byte) (s : State) : Host.Outcome State Fault Refusal :=
  if s.bytesWritten.toNat ≤ s.maxLen then
    .next (endFrame (sendCrc (sendBody (startFrame cmd s))))
  else .fault .payloadIndexOutOfRange

/-- RX.BYTE(b) (42_packet_decoder.md R150). -/
def execRxByte (b : Byte) (s : State) : Host.Outcome State Fault Refusal :=
  receiveRaw b s

end Sys2Proof.Machine
end

