-- ==== Sys2Proof/Machine/Phases.lean ====
section
/-! DEFINITION. The decoder's position-selected actions (format PHASE), selected by the phase (42_packet_decoder.md
R152). RX.CMD to RX.OVERRUN are a logical byte `v` taken whole in its phase, steps 5 to 9 of R150 (DESIGN CHOICE, log
12); RX.DROP is step 4; RX.OVERSIZE and RX.COMPLETE are steps 8 and 9 alone (log 12). -/

namespace Sys2Proof.Machine

/-- RX.CMD (R158): `packet_cmd <- v`. -/
def execRxCmd (v : Byte) (s : State) : Host.Outcome State Fault Refusal :=
  whenSelected (s.phase == .idle) "RX.CMD" (.next (endByte (takeCommand v (foldRxCrc v s))))

/-- RX.LEN1 (R159). -/
def execRxLen1 (v : Byte) (s : State) : Host.Outcome State Fault Refusal :=
  whenSelected (s.phase == .len1) "RX.LEN1" (.next (endByte (takeFirstLength v (foldRxCrc v s))))

/-- RX.LEN2 (R160). -/
def execRxLen2 (v : Byte) (s : State) : Host.Outcome State Fault Refusal :=
  whenSelected (s.phase == .len2) "RX.LEN2" (.next (endByte (takeSecondLength v (foldRxCrc v s))))

/-- RX.PAYLOAD (R161). -/
def execRxPayload (v : Byte) (s : State) : Host.Outcome State Fault Refusal :=
  whenSelected (s.phase == .payload) "RX.PAYLOAD" (storeLogical v s)

/-- RX.CRC (R162): folded and counted, not stored. -/
def execRxCrc (v : Byte) (s : State) : Host.Outcome State Fault Refusal :=
  whenSelected (s.phase == .crc) "RX.CRC" (.next (endByte (foldRxCrc v s)))

/-- RX.OVERRUN (R163): folded and counted, not stored. -/
def execRxOverrun (v : Byte) (s : State) : Host.Outcome State Fault Refusal :=
  whenSelected (s.phase == .overrun) "RX.OVERRUN" (.next (endByte (foldRxCrc v s)))

/-- RX.DROP (R156): the byte is discarded, whatever it is. -/
def execRxDrop (_v : Byte) (s : State) : Host.Outcome State Fault Refusal :=
  whenSelected (s.phase == .drop) "RX.DROP" (.next s)

/-- RX.OVERSIZE (R165): step 8's actions, where step 8's test holds. -/
def execRxOversize (s : State) : Host.Outcome State Fault Refusal :=
  whenSelected (s.countTest == .oversize) "RX.OVERSIZE" (.next (rejectOversize s))

/-- RX.COMPLETE (R166, R167): step 9's actions, where step 9's test holds. DESIGN CHOICE (log 12): offered alone
to a decoder at rest in OVERRUN whose count equals the total (T32 after its TX.FRAME), where R163 gives RX.BYTE
no COMPLETE and the spec says nothing of this row, the row completes the frame all the same. -/
def execRxComplete (s : State) : Host.Outcome State Fault Refusal :=
  whenSelected (s.countTest == .complete) "RX.COMPLETE" (.next (completeFrame s))

end Sys2Proof.Machine
end

