-- ==== Sys2Proof/Machine/RawClasses.lean ====
section
/-! DEFINITION. The raw-byte classes at the decoder (formats RAW8 and ESC16). -/

namespace Sys2Proof.Machine

/-- RX.FLAG (42_packet_decoder.md R153), selected when no escape is pending (30_encoding.md R94). -/
def execRxFlag (s : State) : Host.Outcome State Fault Refusal :=
  whenSelected (!s.unEscaping) "RX.FLAG" (.next (boundaryReset s))

/-- RX.ESC (R154). -/
def execRxEsc (s : State) : Host.Outcome State Fault Refusal :=
  .next { s with unEscaping := true }

/-- RX.UNESC (R155): the logical byte is `b XOR 0x20`. -/
def execRxUnesc (b : Byte) (s : State) : Host.Outcome State Fault Refusal :=
  whenSelected (s.unEscaping && b != Config.controlEscape) "RX.UNESC"
    (acceptLogical (b ^^^ Config.escapeXor) { s with unEscaping := false })

/-- RX.LIT (R155): the logical byte is `b`. -/
def execRxLit (b : Byte) (s : State) : Host.Outcome State Fault Refusal :=
  whenSelected (!s.unEscaping && !isSentinel b) "RX.LIT" (acceptLogical b s)

/-- ESC.PAIR.7E (R81): the raw bytes 7D and 5E received one after the other (log 13). -/
def execEscPair7E (s : State) : Host.Outcome State Fault Refusal :=
  andThen (receiveRaw 0x7D#8 s) (receiveRaw 0x5E#8)

/-- ESC.PAIR.7D (R81): the raw bytes 7D and 5D received one after the other (log 13). -/
def execEscPair7D (s : State) : Host.Outcome State Fault Refusal :=
  andThen (receiveRaw 0x7D#8 s) (receiveRaw 0x5D#8)

end Sys2Proof.Machine
end

