-- ==== Sys2Proof/Machine/Dispatch.lean ====
section
/-! DEFINITION. One arm per instruction. -/

namespace Sys2Proof.Machine

def exec (i : Instr) (s : State) : Host.Outcome State Fault Refusal :=
  match i with
  | .rxFlag => Sys2Proof.Machine.execRxFlag s
  | .rxEsc => Sys2Proof.Machine.execRxEsc s
  | .rxUnesc b => Sys2Proof.Machine.execRxUnesc b s
  | .rxLit b => Sys2Proof.Machine.execRxLit b s
  | .encEsc7E => Sys2Proof.Machine.execEncEsc7E s
  | .encEsc7D => Sys2Proof.Machine.execEncEsc7D s
  | .encLit b => Sys2Proof.Machine.execEncLit b s
  | .escPair7E => Sys2Proof.Machine.execEscPair7E s
  | .escPair7D => Sys2Proof.Machine.execEscPair7D s
  | .lenShort n => Sys2Proof.Machine.execLenShort n s
  | .lenLong nHi nLo => Sys2Proof.Machine.execLenLong nHi nLo s
  | .cmdRequest c => Sys2Proof.Machine.execCmdRequest c s
  | .cmdReply c => Sys2Proof.Machine.execCmdReply c s
  | .cmdStd80 => Sys2Proof.Machine.execCmdStd80 s
  | .cmdStd81 => Sys2Proof.Machine.execCmdStd81 s
  | .cmdStd82 => Sys2Proof.Machine.execCmdStd82 s
  | .cmdStd83 => Sys2Proof.Machine.execCmdStd83 s
  | .cmdStd84 => Sys2Proof.Machine.execCmdStd84 s
  | .cmdStd85 => Sys2Proof.Machine.execCmdStd85 s
  | .cmdStd86 => Sys2Proof.Machine.execCmdStd86 s
  | .rxCmd v => Sys2Proof.Machine.execRxCmd v s
  | .rxLen1 v => Sys2Proof.Machine.execRxLen1 v s
  | .rxLen2 v => Sys2Proof.Machine.execRxLen2 v s
  | .rxPayload v => Sys2Proof.Machine.execRxPayload v s
  | .rxCrc v => Sys2Proof.Machine.execRxCrc v s
  | .rxOverrun v => Sys2Proof.Machine.execRxOverrun v s
  | .rxDrop v => Sys2Proof.Machine.execRxDrop v s
  | .rxOversize => Sys2Proof.Machine.execRxOversize s
  | .rxComplete => Sys2Proof.Machine.execRxComplete s
  | .reset c => Sys2Proof.Machine.execReset c s
  | .bufAppend b => Sys2Proof.Machine.execBufAppend b s
  | .txFrame cmd => Sys2Proof.Machine.execTxFrame cmd s
  | .rxByte b => Sys2Proof.Machine.execRxByte b s
  | .encByte b => Sys2Proof.Machine.execEncByte b s
  | .decByte b => Sys2Proof.Machine.execDecByte b s
  | .crc16Update c b => Sys2Proof.Machine.execCrc16Update c b s

end Sys2Proof.Machine
end

