-- ==== Sys2Proof/Machine/Environment.lean ====
section
/-! DEFINITION. What the environment does to the MFC's state apart from its operations (44_system_ops.md R203,
R207, R208, R210). None of it is behaviour of the MFC (00_scope.md R3; log 16). -/

namespace Sys2Proof.Machine

/-- Where reads of a received packet end: `payload_length` (R207), and the buffer's own end. -/
def State.readBound (s : State) : Nat := min s.payloadLength.toNat s.maxLen

/-- A read of `n` bytes at `bytes_read` that advances the cursor (R207); past the bound it is refused
(93_implementation_defined.md U14). -/
def readCursor (n : Nat) (s : State) : Host.Outcome State Fault Refusal :=
  if s.bytesRead.toNat + n ≤ s.readBound then
    .next (answer (.bytes (s.payloadSlice s.bytesRead.toNat n))
      { s with bytesRead := s.bytesRead + BitVec.ofNat 16 n })
  else .refused .readPastPacket

/-- How many bytes from index `i` on stand before a zero byte, looking at `fuel` bytes at most. -/
def stringLength (s : State) (i : Nat) : Nat → Option Nat
  | 0 => none
  | fuel + 1 =>
    if s.payloadByte i = 0#8 then some 0
    else (stringLength s (i + 1) fuel).map (· + 1)

/-- `read_string()` (R207): up to the terminator, and past it. -/
def readTerminated (s : State) : Host.Outcome State Fault Refusal :=
  match stringLength s s.bytesRead.toNat (s.readBound - s.bytesRead.toNat) with
  | some n =>
    .next (answer (.bytes (s.payloadSlice s.bytesRead.toNat n))
      { s with bytesRead := s.bytesRead + BitVec.ofNat 16 (n + 1) })
  | none => .refused .readPastPacket

/-- The Dispatcher's `payload_length -= 1` (R208); an empty reply is a general error that leaves 0 (U15). -/
def stripReturnCode (s : State) : State :=
  if s.payloadLength = 0#16 then raise (.dispatchError Config.returnGeneralError) s
  else { s with payloadLength := s.payloadLength - 1#16 }

/-- `serialize(bytes, n)` (R203): fails as a whole if it would exceed, else one append after another. -/
def serializeBytes (bs : List Byte) (s : State) : State :=
  if s.maxLen < s.bytesWritten.toNat + bs.length then raise (.bufError Config.returnBadPacketSize) s
  else bs.foldl (fun t b => appendByte b t) s

/-- One action of the environment. -/
def envAct (a : EnvAction) (s : State) : Host.Outcome State Fault Refusal :=
  match a with
  | .readU8 => readCursor 1 s
  | .readU16 => readCursor 2 s
  | .readF32 => readCursor 4 s
  | .readArray n => readCursor n s
  | .readString => readTerminated s
  | .clearRequestBit => .next { s with packetCmd := s.packetCmd &&& 0x7F#8 }
  | .stripReturnCode => .next (stripReturnCode s)
  | .serialize bs => .next (serializeBytes bs s)

end Sys2Proof.Machine
end

