-- ==== Sys2Proof/Machine/Fetch.lean ====
section
/-! DEFINITION. Taking the next input from `pending` (log 6) and placing one there. -/

namespace Sys2Proof.Machine

/-- The first input taken off, with the state that is left. -/
def takeInput (s : State) : Option (Input × State) :=
  match s.pending with
  | [] => none
  | x :: rest => some (x, { s with pending := rest })

/-- A word issued as the very next input. -/
def issueNext (w : CodeWord) (s : State) : State :=
  { s with pending := .word w :: s.pending }

/-- The position in which a word of the format is that format's row: RAW8 with no escape pending (as the
table's bare word is read), LEN1 in phase LEN1, CMD8 in phase IDLE (R152). -/
def placeFor (p : Port) (s : State) : State :=
  match p with
  | .raw8 => { s with unEscaping := false }
  | .len1 => { s with rxDrop := false, bytesReceived := 1#16 }
  | .cmd8 => { s with rxDrop := false, bytesReceived := 0#16 }
  | _ => s

end Sys2Proof.Machine
end

