-- ==== Sys2Proof/Machine/Step.lean ====
section
/-! DEFINITION. One step: the next pending input is taken, decoded and executed; with nothing pending the
machine does nothing (70_reset_and_hazards.md R251, R272). -/

namespace Sys2Proof.Machine

def step (s : State) : Host.Outcome State Fault Refusal :=
  match takeInput s with
  | none => .next s
  | some (.act a, t) => envAct a t
  | some (.word w, t) =>
    match decode s.selector w with
    | .ok i => exec i t
    | .rejected r => .refused (.undecodable r)

/-- The table's bare word issued as the next input, in the position in which its format stands (log 6, log 15). -/
def State.withFetchWord (s : State) (nbits w : Nat) : State :=
  issueNext (tableWord nbits w) (placeFor (tablePort nbits w) s)

end Sys2Proof.Machine
end

