-- ==== Sys2Proof/Machine/Runs.lean ====
section
/-! DEFINITION. Sequences: the codec on sequences (40_frame_codec.md R112), the frame in closed form
(41_packet_encoder.md R131), and instructions and raw bytes executed one after another (00_scope.md R13). -/

namespace Sys2Proof.Machine

/-- `encode(B)` (R112). -/
def encodeBytes (bs : List Byte) : List Byte := bs.flatMap encodeByte

/-- `decode_byte` on each raw byte in order, from a given flag: the flag left and the logical bytes (R112). -/
def decodeBytes (unEscaping : Bool) : List Byte → Bool × List Byte
  | [] => (unEscaping, [])
  | b :: rest =>
    match decodeByte unEscaping b with
    | (flag, v) =>
      match decodeBytes flag rest with
      | (final, vs) => (final, v.toList ++ vs)

/-- The logical bytes of a frame that the CRC covers: CMD, LEN, PAYLOAD (R131, `H ++ P`). -/
def frameBody (cmd : Byte) (p : List Byte) : List Byte :=
  cmd :: lengthBytes (BitVec.ofNat 16 p.length) ++ p

/-- The two CRC bytes, low first (R62). -/
def crcBytes (k : Word16) : List Byte := [lo8 k, hi8 k]

/-- The logical bytes of a frame after the boundary (R103). -/
def frameLogical (crcEnabled : Bool) (cmd : Byte) (p : List Byte) : List Byte :=
  frameBody cmd p ++ if crcEnabled then crcBytes (crc16 (frameBody cmd p)) else []

/-- `frame(C, P)` (R131): the raw bytes. -/
def frame (crcEnabled : Bool) (cmd : Byte) (p : List Byte) : List Byte :=
  Config.frameBoundary :: encodeBytes (frameLogical crcEnabled cmd p)

/-- Whether an unescaped boundary arrives among the raw bytes, from a given flag (30_encoding.md R94). -/
def holdsBoundary (unEscaping : Bool) : List Byte → Bool
  | [] => false
  | b :: rest =>
    (b == Config.frameBoundary && !unEscaping) || holdsBoundary (decodeByte unEscaping b).1 rest

/-- Instructions executed one after another. -/
def execAll : List Instr → State → Host.Outcome State Fault Refusal
  | [], s => .next s
  | i :: rest, s => andThen (exec i s) (execAll rest)

/-- Raw bytes received one after another, `RX b1 ... bk` (R13). -/
def receiveAll (bs : List Byte) : State → Host.Outcome State Fault Refusal :=
  execAll (bs.map Instr.rxByte)

/-- `count` steps of the machine. -/
def steps : Nat → State → Host.Outcome State Fault Refusal
  | 0, s => .next s
  | k + 1, s => andThen (step s) (steps k)

end Sys2Proof.Machine
end

