-- ==== Sys2Proof/Safety.lean ====
section
/-! DEFINITION. What counts as a sound state and a safe step (10_state.md R37, 42_packet_decoder.md R171). -/

namespace Sys2Proof.Safety

open Sys2Proof.Machine

/-- The invariant of R37 (a) to (f), with what (f) rests on: once the length is complete it is bounded
(R66), in LEN2 only the high part of the length is there (R160), and the buffer lists its indices once,
in order, all below MAX_PAYLOAD_LENGTH (20_memory.md R60). -/
structure SoundState (s : State) : Prop where
  headerLength : s.headerLength = 2#2 ∨ s.headerLength = 3#2
  payloadLength : s.payloadLength.toNat ≤ 32767
  bytesWritten : s.bytesWritten.toNat ≤ s.maxLen
  dropIsIdle : s.rxDrop = true → s.bytesReceived = 0#16
  idleCrc : s.bytesReceived = 0#16 → s.rxCrc = Config.crcInit
  lengthBounded : s.headerLength.toNat ≤ s.bytesReceived.toNat → s.payloadLength.toNat ≤ s.maxLen
  highPartOnly : s.bytesReceived = 2#16 → s.headerLength = 3#2 → s.payloadLength.toNat ≤ 0x7F00
  bufferOrdered : Memory.wf s.payload
  bufferInRange : ∀ c ∈ s.payload, c.1 < s.maxLen

/-- R37 (g): the decoder is never past the end of its frame. It holds where the environment keeps
70_reset_and_hazards.md R258. -/
def WithinFrame (s : State) : Prop :=
  2 ≤ s.bytesReceived.toNat → s.bytesReceived.toNat < s.total

/-- The state has the position in which a byte of a header format is that format's row: a length byte in
phase LEN1, a command byte in phase IDLE (42_packet_decoder.md R152). Every other row has no such need. -/
def InPosition (s : State) : Instr → Prop
  | .lenShort _ => s.phase = .len1
  | .lenLong _ _ => s.phase = .len1
  | .cmdRequest _ => s.phase = .idle
  | .cmdReply _ => s.phase = .idle
  | .cmdStd80 => s.phase = .idle
  | .cmdStd81 => s.phase = .idle
  | .cmdStd82 => s.phase = .idle
  | .cmdStd83 => s.phase = .idle
  | .cmdStd84 => s.phase = .idle
  | .cmdStd85 => s.phase = .idle
  | .cmdStd86 => s.phase = .idle
  | _ => True

/-- The rows that may emit raw bytes: TX.FRAME and the escape encoder (00_scope.md R11, 40_frame_codec.md R110). -/
def mayEmit : Instr → Bool
  | .txFrame _ => true
  | .encByte _ => true
  | .encEsc7E => true
  | .encEsc7D => true
  | .encLit _ => true
  | _ => false

/-- The rows that return a value (log 11). -/
def mayAnswer : Instr → Bool
  | .decByte _ => true
  | .crc16Update _ _ => true
  | _ => false

/-- RESET, whatever its operand. -/
def isReset : Instr → Bool
  | .reset _ => true
  | _ => false

/-- TX.FRAME, whatever its operand. -/
def isTxFrame : Instr → Bool
  | .txFrame _ => true
  | _ => false

/-- BUF.APPEND, whatever its operand. -/
def isAppend : Instr → Bool
  | .bufAppend _ => true
  | _ => false

/-- The rows in which the decoder can reach COMPLETE: those that take a logical byte which is counted, and RX.COMPLETE.
The rest never do, from any state. -/
def mayComplete : Instr → Bool
  | .rxFlag => false
  | .rxEsc => false
  | .rxUnesc _ => true
  | .rxLit _ => true
  | .encEsc7E => false
  | .encEsc7D => false
  | .encLit _ => false
  | .escPair7E => true
  | .escPair7D => true
  | .lenShort _ => true
  | .lenLong _ _ => true
  | .cmdRequest _ => true
  | .cmdReply _ => true
  | .cmdStd80 => true
  | .cmdStd81 => true
  | .cmdStd82 => true
  | .cmdStd83 => true
  | .cmdStd84 => true
  | .cmdStd85 => true
  | .cmdStd86 => true
  | .rxCmd _ => true
  | .rxLen1 _ => true
  | .rxLen2 _ => true
  | .rxPayload _ => true
  | .rxCrc _ => true
  | .rxOverrun _ => true
  | .rxDrop _ => false
  | .rxOversize => false
  | .rxComplete => true
  | .reset _ => false
  | .bufAppend _ => false
  | .txFrame _ => false
  | .rxByte _ => true
  | .encByte _ => false
  | .decByte _ => false
  | .crc16Update _ _ => false

/-- The rows of the decoder: RX.BYTE and what it is made of. -/
def isReceive : Instr → Bool
  | .rxFlag => true
  | .rxEsc => true
  | .rxUnesc _ => true
  | .rxLit _ => true
  | .encEsc7E => false
  | .encEsc7D => false
  | .encLit _ => false
  | .escPair7E => true
  | .escPair7D => true
  | .lenShort _ => true
  | .lenLong _ _ => true
  | .cmdRequest _ => true
  | .cmdReply _ => true
  | .cmdStd80 => true
  | .cmdStd81 => true
  | .cmdStd82 => true
  | .cmdStd83 => true
  | .cmdStd84 => true
  | .cmdStd85 => true
  | .cmdStd86 => true
  | .rxCmd _ => true
  | .rxLen1 _ => true
  | .rxLen2 _ => true
  | .rxPayload _ => true
  | .rxCrc _ => true
  | .rxOverrun _ => true
  | .rxDrop _ => true
  | .rxOversize => true
  | .rxComplete => true
  | .reset _ => false
  | .bufAppend _ => false
  | .txFrame _ => false
  | .rxByte _ => true
  | .encByte _ => false
  | .decByte _ => false
  | .crc16Update _ _ => false

/-- DEC.BYTE, whatever its operand. -/
def isDecByte : Instr → Bool
  | .decByte _ => true
  | _ => false

/-- From `s` the decoder reached COMPLETE (42_packet_decoder.md R167): the three counters are zero, `rx_crc` is
re-initialised, and one event was raised, the packet or code 7. -/
structure CompletedFrame (s t : State) : Prop where
  bytesReceived : t.bytesReceived = 0#16
  bytesRead : t.bytesRead = 0#16
  bytesWritten : t.bytesWritten = 0#16
  rxCrc : t.rxCrc = Config.crcInit
  event : t.events = s.events ++ [.rxPacket t.packetCmd t.payloadLength] ∨
    t.events = s.events ++ [.rxError Config.returnBadCrc]

/-- An outcome that is a next state with a property: a fault or a refusal is not. -/
def GoesOn (o : Host.Outcome State Fault Refusal) (p : State → Prop) : Prop :=
  ∃ t, o = .next t ∧ p t

/-- An outcome that is no fault. -/
def NoFault (o : Host.Outcome State Fault Refusal) : Prop :=
  ∀ f, o ≠ .fault f

end Sys2Proof.Safety
end

