-- ==== Sys2Proof/Certificates/Slice0/Obligations.lean ====
section
/-! DEFINITION. The statements for the provers, from the numbered rules of spec/. -/

open Sys2Proof Sys2Proof.Machine Sys2Proof.Safety

/-! ## The escape codec -/

/-- R110: `encode_byte(b)` emits 7D and `b XOR 0x20` for the two sentinels and `b` itself otherwise, for each of
the 256 values, and changes nothing else. -/
def Obligations.EncByteEmitsTheEscapedForm : Prop :=
  ∀ (b : Byte) (s : State),
    exec (.encByte b) s =
      .next { s with emitted := s.emitted ++
        (if b = 0x7E#8 ∨ b = 0x7D#8 then [0x7D#8, b ^^^ 0x20#8] else [b]) }

/-- R95: the class of a logical byte at the escape encoder depends on the byte only, and each class emits its raw
bytes and changes nothing else. (ENC.LIT is no class of the two sentinels:
Obligations.UnselectedRowsAreRefusedByName.) -/
def Obligations.LogicalClassesEmitTheirRawBytes : Prop :=
  (∀ (sel : Selector) (b : Byte),
    decode sel ⟨.log8, [b]⟩ =
      .ok (if b = 0x7E#8 then .encEsc7E else if b = 0x7D#8 then .encEsc7D else .encLit b)) ∧
  (∀ s : State, exec .encEsc7E s = .next { s with emitted := s.emitted ++ [0x7D#8, 0x5E#8] }) ∧
  (∀ s : State, exec .encEsc7D s = .next { s with emitted := s.emitted ++ [0x7D#8, 0x5D#8] }) ∧
  (∀ (b : Byte) (s : State), b ≠ 0x7E#8 → b ≠ 0x7D#8 →
    exec (.encLit b) s = .next { s with emitted := s.emitted ++ [b] })

/-- 40_frame_codec.md section 2 (R111), with the model's choice to record what is returned (log 11): the three
cases of `decode_byte` in the order of its tests. -/
def Obligations.DecByteTakesItsThreeCasesInOrder : Prop :=
  ∀ (b : Byte) (s : State),
    exec (.decByte b) s = .next (
      if b = 0x7D#8 then { s with unEscaping := true, results := s.results ++ [.logical none] }
      else if s.unEscaping = true then
        { s with unEscaping := false, results := s.results ++ [.logical (some (b ^^^ 0x20#8))] }
      else { s with results := s.results ++ [.logical (some b)] })

/-- 40_frame_codec.md section 2 (R113): the round trip for every finite sequence, with the flag clear at the end; the
converse does not hold. -/
def Obligations.DecodingUndoesEncoding : Prop :=
  (∀ bs : List Byte, decodeBytes false (encodeBytes bs) = (false, bs)) ∧
  (∃ raw : List Byte, encodeBytes (decodeBytes false raw).2 ≠ raw)

/-- 40_frame_codec.md section 1 (R114): no raw boundary comes out of the escape encoder, an escape byte comes only
before 5E or 5D, and the size is between one and two raw bytes for each logical byte. -/
def Obligations.EncoderOutputIsTransparent : Prop :=
  ∀ bs : List Byte,
    (0x7E#8 ∉ encodeBytes bs) ∧
    (∀ before after : List Byte, encodeBytes bs = before ++ 0x7D#8 :: after →
      ∃ rest, after = 0x5E#8 :: rest ∨ after = 0x5D#8 :: rest) ∧
    bs.length ≤ (encodeBytes bs).length ∧ (encodeBytes bs).length ≤ 2 * bs.length

/-! ## The raw classes of RX.BYTE -/

/-- R154: a raw 7D sets `un_escaping` and ends the operation, in every phase and whether or not the flag was set. -/
def Obligations.EscapeByteOnlySetsTheFlag : Prop :=
  ∀ s : State,
    exec .rxEsc s = .next { s with unEscaping := true } ∧
    exec (.rxByte 0x7D#8) s = .next { s with unEscaping := true }

/-- 42_packet_decoder.md section 2 (R153, with decisions D8, D9 and D10 of 92_eei_decisions.md): an unescaped boundary
discards the frame in progress with no event and leaves everything but three registers. Where an escape is pending the
row is not selected (the model's choice, log 8). -/
def Obligations.UnescapedBoundaryResetsTheDecoder : Prop :=
  ∀ s : State,
    (s.unEscaping = false →
      exec .rxFlag s = .next { s with bytesReceived := 0#16, rxCrc := 0xFFFF#16, rxDrop := false } ∧
      exec (.rxByte 0x7E#8) s = .next { s with bytesReceived := 0#16, rxCrc := 0xFFFF#16, rxDrop := false }) ∧
    (s.unEscaping = true → exec .rxFlag s = .refused (.rowNotSelected "RX.FLAG"))

/-- 30_encoding.md section 5 (R94): the class of a raw byte, tests in the rule's order, and RX.BYTE is the row of
its class. -/
def Obligations.RxByteRunsTheRowOfItsClass : Prop :=
  ∀ (b : Byte) (s : State),
    let row : Instr :=
      if b = 0x7E#8 ∧ s.unEscaping = false then .rxFlag
      else if b = 0x7D#8 then .rxEsc
      else if s.unEscaping = true then .rxUnesc b
      else .rxLit b
    decode s.selector ⟨.raw8, [b]⟩ = .ok row ∧ exec (.rxByte b) s = exec row s

/-- 42_packet_decoder.md sections 1 and 2 (R155, R150, R152), that a phase row takes its byte whole being the model's
choice (log 12): with the flag set the logical byte is `b XOR 0x20` and the flag clears, else it is `b`; from there on
it is taken by the phase alone (the phases of R152 against the tests of R150). -/
def Obligations.LogicalByteIsTakenByItsPhase : Prop :=
  ∀ (b : Byte) (s : State),
    (s.unEscaping = true → b ≠ 0x7D#8 →
      exec (.rxUnesc b) s = exec (classifyPhase s.phase (b ^^^ 0x20#8)) { s with unEscaping := false } ∧
      exec (.rxByte b) s = exec (classifyPhase s.phase (b ^^^ 0x20#8)) { s with unEscaping := false }) ∧
    (s.unEscaping = false → b ≠ 0x7E#8 → b ≠ 0x7D#8 →
      exec (.rxLit b) s = exec (classifyPhase s.phase b) s ∧
      exec (.rxByte b) s = exec (classifyPhase s.phase b) s)

/-- 10_state.md section 1 (R25): after a raw byte, `un_escaping` is true exactly when that byte was 7D. -/
def Obligations.FlagIsSetExactlyAfterAnEscape : Prop :=
  ∀ (b : Byte) (s t : State), exec (.rxByte b) s = .next t → (t.unEscaping = true ↔ b = 0x7D#8)

/-- 30_encoding.md sections 2 and 5 (R81, R94) and 42_packet_decoder.md sections 1 and 2 (R152, R154, R155): from
every state, the pair is its logical byte, taken by the phase, with no escape pending after it. Both raw bytes in one
step (log 13) and the phase row that takes its byte whole (log 12) are the model's choices; where an escape is already
pending, the pair is its logical byte by decision D21 of 92_eei_decisions.md (U3 of 93_implementation_defined.md, log
17). -/
def Obligations.EscapedPairStandsForItsLogicalByte : Prop :=
  ∀ s : State,
    exec .escPair7E s = exec (classifyPhase s.phase 0x7E#8) { s with unEscaping := false } ∧
    exec .escPair7D s = exec (classifyPhase s.phase 0x7D#8) { s with unEscaping := false }

/-! ## The phases of the decoder -/

/-- 42_packet_decoder.md section 2 (R158, R157, R164), that the row RX.CMD itself folds and counts its byte being the
model's choice (log 12): in phase IDLE the logical byte, whatever it is, becomes the command byte. -/
def Obligations.IdlePhaseTakesTheCommandByte : Prop :=
  ∀ (v : Byte) (s : State), s.rxDrop = false → s.bytesReceived = 0#16 →
    s.headerLength = 2#2 ∨ s.headerLength = 3#2 →
    exec (.rxCmd v) s =
      .next { s with packetCmd := v, rxCrc := crc16Update s.rxCrc v, bytesReceived := 1#16 }

/-- 42_packet_decoder.md section 2 (R159, decision D8 of 92_eei_decisions.md): the first length byte. Bit 7 set:
header length 3 and the high part. Bit 7 clear: header length 2 and all of `N`, the packet complete at once if `N` is
0 and the CRC is disabled. (`N` above MAX_PAYLOAD_LENGTH is Obligations.OversizeIsRejectedWhenTheLengthIsComplete.)
(That the row takes its byte whole is the model's choice, log 12.) -/
def Obligations.FirstLengthByteSetsHeaderAndLength : Prop :=
  ∀ (v : Byte) (s : State), s.rxDrop = false → s.bytesReceived = 1#16 →
    (v.getLsbD 7 = true →
      exec (.rxLen1 v) s =
        .next { s with headerLength := 3#2, payloadLength := (v &&& 0x7F#8).setWidth 16 <<< 8,
                       rxCrc := crc16Update s.rxCrc v, bytesReceived := 2#16 }) ∧
    (v.getLsbD 7 = false → v.toNat ≤ s.maxLen →
      exec (.rxLen1 v) s = .next (
        if v = 0#8 ∧ s.crcEnabled = false then
          { s with headerLength := 2#2, payloadLength := 0#16, rxCrc := 0xFFFF#16, bytesReceived := 0#16,
                   bytesRead := 0#16, bytesWritten := 0#16,
                   events := s.events ++ [.rxPacket s.packetCmd 0#16] }
        else
          { s with headerLength := 2#2, payloadLength := v.setWidth 16,
                   rxCrc := crc16Update s.rxCrc v, bytesReceived := 2#16 }))

/-- 42_packet_decoder.md section 2 (R160, decision D8 of 92_eei_decisions.md): the second length byte is added to the
length, with no carry past the low byte, and is not stored. (A sum above MAX_PAYLOAD_LENGTH is
Obligations.OversizeIsRejectedWhenTheLengthIsComplete.) (That the row takes its byte whole is the model's choice, log
12.) -/
def Obligations.SecondLengthByteIsAddedToTheLength : Prop :=
  ∀ (v : Byte) (s : State), s.rxDrop = false → s.bytesReceived = 2#16 → s.headerLength = 3#2 →
    s.payloadLength.toNat ≤ 0x7F00 → s.payloadLength.toNat + v.toNat ≤ s.maxLen →
    exec (.rxLen2 v) s = .next (
      if s.payloadLength.toNat + v.toNat = 0 ∧ s.crcEnabled = false then
        { s with payloadLength := 0#16, rxCrc := 0xFFFF#16, bytesReceived := 0#16,
                 bytesRead := 0#16, bytesWritten := 0#16,
                 events := s.events ++ [.rxPacket s.packetCmd 0#16] }
      else
        { s with payloadLength := BitVec.ofNat 16 (s.payloadLength.toNat + v.toNat),
                 rxCrc := crc16Update s.rxCrc v, bytesReceived := 3#16 })

/-- 42_packet_decoder.md section 2 (R165, decision D10 of 92_eei_decisions.md): the operation that completes the
length rejects an oversize frame with code 6, in both length forms, and nothing is stored. (That the row takes its
byte whole is the model's choice, log 12.) -/
def Obligations.OversizeIsRejectedWhenTheLengthIsComplete : Prop :=
  (∀ (v : Byte) (s : State), s.rxDrop = false → s.bytesReceived = 1#16 → v.getLsbD 7 = false →
    s.maxLen < v.toNat →
    exec (.rxLen1 v) s =
      .next { s with headerLength := 2#2, payloadLength := v.setWidth 16, rxCrc := 0xFFFF#16,
                     bytesReceived := 0#16, rxDrop := true, events := s.events ++ [.rxError 6#8] }) ∧
  (∀ (v : Byte) (s : State), s.rxDrop = false → s.bytesReceived = 2#16 → s.headerLength = 3#2 →
    s.payloadLength.toNat ≤ 0x7F00 → s.maxLen < s.payloadLength.toNat + v.toNat →
    exec (.rxLen2 v) s =
      .next { s with payloadLength := BitVec.ofNat 16 (s.payloadLength.toNat + v.toNat), rxCrc := 0xFFFF#16,
                     bytesReceived := 0#16, rxDrop := true, events := s.events ++ [.rxError 6#8] })

/-- 42_packet_decoder.md section 2 (R161, R167, decision D8 of 92_eei_decisions.md): a payload byte is stored at
`bytes_received - header_length`, before the count, whatever becomes of the frame; every other byte of the buffer
reads as before; the frame completes if this was its last byte. (That the row takes its byte whole is the model's
choice, log 12.) -/
def Obligations.PayloadByteIsStoredAtItsPosition : Prop :=
  ∀ (v : Byte) (s : State), s.phase = .payload → s.payloadLength.toNat ≤ s.maxLen →
    let counted : State :=
      { s with payload := Memory.write s.payload (s.bytesReceived.toNat - s.headerLength.toNat) v,
               rxCrc := crc16Update s.rxCrc v, bytesReceived := s.bytesReceived + 1#16 }
    ∃ t : State,
      exec (.rxPayload v) s = .next t ∧
      t = (if s.bytesReceived.toNat + 1 = s.total then completeFrame counted else counted) ∧
      t.payloadByte (s.bytesReceived.toNat - s.headerLength.toNat) = v ∧
      ∀ a : Nat, a ≠ s.bytesReceived.toNat - s.headerLength.toNat → t.payloadByte a = s.payloadByte a

/-- 42_packet_decoder.md section 2 (R162, R167, decisions D8 and D11 of 92_eei_decisions.md): the two CRC bytes are
folded and counted and not stored; the second one completes the frame. (That the row takes its byte whole is the
model's choice, log 12.) -/
def Obligations.CrcByteIsFoldedAndNotStored : Prop :=
  ∀ (v : Byte) (s : State), s.phase = .crc → s.payloadLength.toNat ≤ 32767 →
    let counted : State := { s with rxCrc := crc16Update s.rxCrc v, bytesReceived := s.bytesReceived + 1#16 }
    s.crcEnabled = true ∧
    exec (.rxCrc v) s =
      .next (if s.bytesReceived.toNat + 1 = s.total then completeFrame counted else counted) ∧
    (completeFrame counted).payload = s.payload

/-- 42_packet_decoder.md section 2 (R163, decision D12 of 92_eei_decisions.md): past the total a byte is folded and
counted, up to the limit, and never completes a frame. (That the row takes its byte whole is the model's choice, log
12.) -/
def Obligations.OverrunByteNeverCompletes : Prop :=
  ∀ (v : Byte) (s : State), s.phase = .overrun → s.payloadLength.toNat ≤ 32767 →
    exec (.rxOverrun v) s =
      .next { s with rxCrc := crc16Update s.rxCrc v,
                     bytesReceived := if s.bytesReceived = 0xFFFF#16 then 0xFFFF#16
                                      else s.bytesReceived + 1#16 }

/-- 42_packet_decoder.md section 2 (R156, R165, decision D10 of 92_eei_decisions.md): a dropped logical byte changes
nothing, and raw bytes among which no unescaped boundary arrives leave the drop and move only the escape flag. -/
def Obligations.DropLastsUntilAnUnescapedBoundary : Prop :=
  (∀ (v : Byte) (s : State), s.rxDrop = true → exec (.rxDrop v) s = .next s) ∧
  (∀ (raw : List Byte) (s : State), s.rxDrop = true → holdsBoundary s.unEscaping raw = false →
    receiveAll raw s = .next { s with unEscaping := (decodeBytes s.unEscaping raw).1 })

/-- 42_packet_decoder.md section 2 (R165, decision D10 of 92_eei_decisions.md): step 8's actions. (The row alone,
wherever its test holds: the model's choice, log 12.) -/
def Obligations.OversizeRowRejectsTheFrame : Prop :=
  ∀ s : State, s.bytesReceived.toNat = s.headerLength.toNat → s.maxLen < s.payloadLength.toNat →
    exec .rxOversize s =
      .next { s with bytesReceived := 0#16, rxCrc := 0xFFFF#16, rxDrop := true,
                     events := s.events ++ [.rxError 6#8] }

/-- 42_packet_decoder.md section 2 (R167, decisions D8 and D11 of 92_eei_decisions.md): step 9's actions. Exactly one
event: the packet if the CRC is disabled or the residue is zero, else code 7. (The row alone, wherever its test holds,
also in a decoder at rest in OVERRUN whose count equals the total: the model's choice, log 12.) -/
def Obligations.CompleteRowReportsOneEvent : Prop :=
  ∀ s : State, s.bytesReceived.toNat = s.total → s.payloadLength.toNat ≤ s.maxLen →
    exec .rxComplete s =
      .next { s with bytesReceived := 0#16, bytesRead := 0#16, bytesWritten := 0#16, rxCrc := 0xFFFF#16,
                     events := s.events ++
                       [if s.crcEnabled = true ∧ s.rxCrc ≠ 0#16 then .rxError 7#8
                        else .rxPacket s.packetCmd s.payloadLength] }

/-- 42_packet_decoder.md section 1 (R152) and 30_encoding.md section 5 (R94, R95), the refusal being the model's
choice (log 8): a phase row is refused by its name in every phase but its own, the rows of the tests after the count
where their test fails, and a raw or logical class where another class takes the byte. -/
def Obligations.UnselectedRowsAreRefusedByName : Prop :=
  ∀ (v : Byte) (n : BitVec 7) (s : State),
    (s.unEscaping = true → exec .rxFlag s = .refused (.rowNotSelected "RX.FLAG")) ∧
    (s.phase ≠ .idle → exec (.rxCmd v) s = .refused (.rowNotSelected "RX.CMD")) ∧
    (s.phase ≠ .len1 → exec (.rxLen1 v) s = .refused (.rowNotSelected "RX.LEN1")) ∧
    (s.phase ≠ .len2 → exec (.rxLen2 v) s = .refused (.rowNotSelected "RX.LEN2")) ∧
    (s.phase ≠ .payload → exec (.rxPayload v) s = .refused (.rowNotSelected "RX.PAYLOAD")) ∧
    (s.phase ≠ .crc → exec (.rxCrc v) s = .refused (.rowNotSelected "RX.CRC")) ∧
    (s.phase ≠ .overrun → exec (.rxOverrun v) s = .refused (.rowNotSelected "RX.OVERRUN")) ∧
    (s.phase ≠ .drop → exec (.rxDrop v) s = .refused (.rowNotSelected "RX.DROP")) ∧
    (s.countTest ≠ .oversize → exec .rxOversize s = .refused (.rowNotSelected "RX.OVERSIZE")) ∧
    (s.countTest ≠ .complete → exec .rxComplete s = .refused (.rowNotSelected "RX.COMPLETE")) ∧
    (s.unEscaping = false ∨ v = 0x7D#8 → exec (.rxUnesc v) s = .refused (.rowNotSelected "RX.UNESC")) ∧
    (s.unEscaping = true ∨ v = 0x7E#8 ∨ v = 0x7D#8 → exec (.rxLit v) s = .refused (.rowNotSelected "RX.LIT")) ∧
    (v = 0x7E#8 ∨ v = 0x7D#8 → exec (.encLit v) s = .refused (.rowNotSelected "ENC.LIT")) ∧
    (s.phase ≠ .len1 → exec (.lenShort n) s = .refused (.rowNotSelected "LEN.SHORT") ∧
      exec (.lenLong n v) s = .refused (.rowNotSelected "LEN.LONG")) ∧
    (s.phase ≠ .idle → exec (.cmdRequest n) s = .refused (.rowNotSelected "CMD.REQUEST") ∧
      exec (.cmdReply n) s = .refused (.rowNotSelected "CMD.REPLY") ∧
      exec .cmdStd80 s = .refused (.rowNotSelected "CMD.STD.80") ∧
      exec .cmdStd81 s = .refused (.rowNotSelected "CMD.STD.81") ∧
      exec .cmdStd82 s = .refused (.rowNotSelected "CMD.STD.82") ∧
      exec .cmdStd83 s = .refused (.rowNotSelected "CMD.STD.83") ∧
      exec .cmdStd84 s = .refused (.rowNotSelected "CMD.STD.84") ∧
      exec .cmdStd85 s = .refused (.rowNotSelected "CMD.STD.85") ∧
      exec .cmdStd86 s = .refused (.rowNotSelected "CMD.STD.86"))

/-! ## The header fields -/

/-- R86: `N` is recovered from the two bytes of the long form, "add" and "or" giving the same 15-bit number; and
R84: the short form's byte is `N`. -/
def Obligations.LengthFieldIsAssembledFromItsBytes : Prop :=
  (∀ (nHi : BitVec 7) (nLo : Byte),
    firstLengthOf (byteWithBit7Set nHi) + nLo.setWidth 16 =
      (byteWithBit7Set nHi &&& 0x7F#8).setWidth 16 <<< 8 ||| nLo.setWidth 16 ∧
    (firstLengthOf (byteWithBit7Set nHi) + nLo.setWidth 16).toNat = 256 * nHi.toNat + nLo.toNat) ∧
  (∀ n : BitVec 7, headerLengthOf (byteWithBit7Clear n) = 2#2 ∧
    (firstLengthOf (byteWithBit7Clear n)).toNat = n.toNat)

/-- 30_encoding.md section 3 (R84, R85), the long form's two bytes in one step being the model's choice (log 13): a
length format in phase LEN1 is its bytes taken by RX.LEN1 and RX.LEN2, and completes with its `N` where `N` is
neither oversize nor the end of the frame. -/
def Obligations.LengthRowsSetTheAnnouncedLength : Prop :=
  ∀ s : State, s.rxDrop = false → s.bytesReceived = 1#16 →
    (∀ n : BitVec 7,
      exec (.lenShort n) s = exec (.rxLen1 (byteWithBit7Clear n)) s ∧
      (n.toNat ≤ s.maxLen → n ≠ 0#7 ∨ s.crcEnabled = true →
        exec (.lenShort n) s =
          .next { s with headerLength := 2#2, payloadLength := BitVec.ofNat 16 n.toNat,
                         rxCrc := crc16Update s.rxCrc (byteWithBit7Clear n), bytesReceived := 2#16 })) ∧
    (∀ (nHi : BitVec 7) (nLo : Byte),
      exec (.lenLong nHi nLo) s = andThen (exec (.rxLen1 (byteWithBit7Set nHi)) s) (exec (.rxLen2 nLo)) ∧
      (256 * nHi.toNat + nLo.toNat ≤ s.maxLen → 256 * nHi.toNat + nLo.toNat ≠ 0 ∨ s.crcEnabled = true →
        exec (.lenLong nHi nLo) s =
          .next { s with headerLength := 3#2, payloadLength := BitVec.ofNat 16 (256 * nHi.toNat + nLo.toNat),
                         rxCrc := crc16Update (crc16Update s.rxCrc (byteWithBit7Set nHi)) nLo,
                         bytesReceived := 3#16 }))

/-- R87: the encoder's length form. One byte below 128, else two, high part first, and the length field read back from
them is the length sent, up to the 15 bits of the field. -/
def Obligations.EncoderPicksTheLengthForm : Prop :=
  ∀ l : Word16,
    (l.toNat < 128 → lengthBytes l = [lo8 l] ∧
      classifyLength (lengthBytes l) = .ok (.lenShort (BitVec.ofNat 7 l.toNat))) ∧
    (128 ≤ l.toNat → lengthBytes l = [0x80#8 ||| lo8 (l >>> 8), lo8 l]) ∧
    (128 ≤ l.toNat → l.toNat ≤ 32767 →
      classifyLength (lengthBytes l) =
        .ok (.lenLong (BitVec.ofNat 7 (l.toNat / 256)) (BitVec.ofNat 8 (l.toNat % 256))))

/-- 30_encoding.md section 4 (R90, R91) with section 3 (R83) and 42_packet_decoder.md section 2 (R157, R158, R164),
that a command-format row is the byte received in phase IDLE, itself folded and counted, being the model's choice (log
13): each command format stores its whole byte unchanged and attaches no meaning to it; all nine rows alike. -/
def Obligations.CommandRowsStoreTheirByteUnchanged : Prop :=
  ∀ s : State, s.rxDrop = false → s.bytesReceived = 0#16 → s.headerLength = 2#2 ∨ s.headerLength = 3#2 →
    let took := fun b : Byte =>
      (Host.Outcome.next { s with packetCmd := b, rxCrc := crc16Update s.rxCrc b, bytesReceived := 1#16 } :
        Host.Outcome State Fault Refusal)
    (∀ c : BitVec 7, exec (.cmdRequest c) s = took (0x80#8 ||| c.setWidth 8)) ∧
    (∀ c : BitVec 7, exec (.cmdReply c) s = took (c.setWidth 8)) ∧
    exec .cmdStd80 s = took 0x80#8 ∧ exec .cmdStd81 s = took 0x81#8 ∧ exec .cmdStd82 s = took 0x82#8 ∧
    exec .cmdStd83 s = took 0x83#8 ∧ exec .cmdStd84 s = took 0x84#8 ∧ exec .cmdStd85 s = took 0x85#8 ∧
    exec .cmdStd86 s = took 0x86#8

/-! ## The operations -/

/-- 44_system_ops.md section 1 (R200) and 10_state.md section 7 (R38), decision D7 of 92_eei_decisions.md: what RESET(c)
leaves, from every state. Nothing is claimed of `packet_cmd` and of the buffer's contents, which R38 leaves
unspecified. -/
def Obligations.ResetLeavesTheResetTable : Prop :=
  ∀ (c : Bool) (s : State), ∃ t : State,
    exec (.reset c) s = .next t ∧
    t.headerLength = 2#2 ∧ t.payloadLength = 0#16 ∧ t.bytesReceived = 0#16 ∧ t.unEscaping = false ∧
    t.rxCrc = 0xFFFF#16 ∧ t.rxDrop = false ∧ t.txCrc = 0xFFFF#16 ∧ t.bytesWritten = 0#16 ∧
    t.bytesRead = 0#16 ∧ t.crcEnabled = c ∧
    t.cfg = s.cfg ∧ t.emitted = s.emitted ∧ t.events = s.events ∧ t.results = s.results ∧ t.pending = s.pending ∧
    t.phase = .idle

/-- R202: an append stores at `bytes_written` and advances it, and every other byte reads as before; on a full buffer it
raises BufError(6) and changes nothing. -/
def Obligations.AppendStoresAtTheWriteCursor : Prop :=
  ∀ (b : Byte) (s : State),
    (s.maxLen ≤ s.bytesWritten.toNat →
      exec (.bufAppend b) s = .next { s with events := s.events ++ [.bufError 6#8] }) ∧
    (s.bytesWritten.toNat < s.maxLen →
      ∃ t : State,
        exec (.bufAppend b) s = .next t ∧
        t = { s with payload := Memory.write s.payload s.bytesWritten.toNat b,
                     bytesWritten := s.bytesWritten + 1#16 } ∧
        t.bytesWritten.toNat = s.bytesWritten.toNat + 1 ∧
        t.payloadByte s.bytesWritten.toNat = b ∧
        ∀ a : Nat, a ≠ s.bytesWritten.toNat → t.payloadByte a = s.payloadByte a)

/-- R130: TX.FRAME emits the boundary unescaped, then the command, the length, the payload bytes at indices 0, 1,
... and, if enabled, the CRC low byte first, each escaped; `tx_crc` keeps the CRC, each byte folded once; the
lengths are zeroed; nothing else changes. -/
def Obligations.TxFrameEmitsTheWholeFrame : Prop :=
  ∀ (cmd : Byte) (s : State), s.bytesWritten.toNat ≤ s.maxLen →
    let p := (List.range s.bytesWritten.toNat).map s.payloadByte
    let body := cmd :: (lengthBytes s.bytesWritten ++ p)
    let k := crc16 body
    exec (.txFrame cmd) s =
      .next { s with packetCmd := cmd, payloadLength := 0#16, bytesWritten := 0#16, txCrc := k,
                     emitted := s.emitted ++ 0x7E#8 ::
                       (encodeBytes (body ++ if s.crcEnabled = true then [lo8 k, hi8 k] else [])) }

/-- 30_encoding.md sections 2 and 3 (R96, R98) and 40_frame_codec.md section 1 (R114): a frame costs between `1 +
total` and `1 + 2*total` raw bytes, and its only raw boundary is the leading one. -/
def Obligations.FrameSizeAndItsOnlyBoundary : Prop :=
  ∀ (crcOn : Bool) (cmd : Byte) (p : List Byte), p.length ≤ 32767 →
    let total := p.length + (if p.length < 128 then 2 else 3) + crcLength crcOn
    1 + total ≤ (frame crcOn cmd p).length ∧ (frame crcOn cmd p).length ≤ 1 + 2 * total ∧
    (frame crcOn cmd p).head? = some 0x7E#8 ∧ 0x7E#8 ∉ (frame crcOn cmd p).tail

/-- 42_packet_decoder.md section 3 (R168): from every state with no escape pending, a correct frame is delivered exactly
once, on its last byte, with its payload at indices 0 and up; the decoder is then idle. -/
def Obligations.CorrectFrameIsDeliveredExactlyOnce : Prop :=
  ∀ (cmd : Byte) (p : List Byte) (s : State),
    s.unEscaping = false → s.headerLength = 2#2 ∨ s.headerLength = 3#2 → p.length ≤ s.maxLen →
    (∃ t : State,
      receiveAll (frame s.crcEnabled cmd p) s = .next t ∧
      t.events = s.events ++ [.rxPacket cmd (BitVec.ofNat 16 p.length)] ∧
      (∀ k : Nat, k < p.length → t.payloadByte k = p.getD k 0#8) ∧
      (∀ k : Nat, p.length ≤ k → t.payloadByte k = s.payloadByte k) ∧
      t.packetCmd = cmd ∧ t.payloadLength.toNat = p.length ∧
      t.bytesReceived = 0#16 ∧ t.rxCrc = 0xFFFF#16 ∧ t.rxDrop = false ∧ t.unEscaping = false ∧
      t.bytesRead = 0#16 ∧ t.bytesWritten = 0#16 ∧
      t.emitted = s.emitted ∧ t.txCrc = s.txCrc) ∧
    (∀ k : Nat, k < (frame s.crcEnabled cmd p).length →
      ∃ u : State, receiveAll ((frame s.crcEnabled cmd p).take k) s = .next u ∧ u.events = s.events)

/-- 42_packet_decoder.md section 3 (R172): in phase IDLE, with nothing folded yet, a frame that lacks its leading
boundary is delivered all the same. -/
def Obligations.LeadingBoundaryIsNotRequired : Prop :=
  ∀ (cmd : Byte) (p : List Byte) (s : State),
    s.unEscaping = false → s.rxDrop = false → s.bytesReceived = 0#16 → s.rxCrc = 0xFFFF#16 →
    s.headerLength = 2#2 ∨ s.headerLength = 3#2 → p.length ≤ s.maxLen →
    ∃ t : State,
      receiveAll (frame s.crcEnabled cmd p).tail s = .next t ∧
      t.events = s.events ++ [.rxPacket cmd (BitVec.ofNat 16 p.length)] ∧
      ∀ k : Nat, k < p.length → t.payloadByte k = p.getD k 0#8

/-- 42_packet_decoder.md section 3 (R169): two frames with no gap between them are both delivered, in order. -/
def Obligations.BackToBackFramesAreBothDelivered : Prop :=
  ∀ (cmd cmd' : Byte) (p p' : List Byte) (s : State),
    s.unEscaping = false → s.headerLength = 2#2 ∨ s.headerLength = 3#2 →
    p.length ≤ s.maxLen → p'.length ≤ s.maxLen →
    ∃ t : State,
      receiveAll (frame s.crcEnabled cmd p ++ frame s.crcEnabled cmd' p') s = .next t ∧
      t.events = s.events ++
        [.rxPacket cmd (BitVec.ofNat 16 p.length), .rxPacket cmd' (BitVec.ofNat 16 p'.length)]

/-- 42_packet_decoder.md section 3 (R168) with R130: what one MFC emits, another with the same `crc_enabled` and a large
enough buffer delivers, byte for byte. -/
def Obligations.SentPayloadArrivesAtTheOtherEnd : Prop :=
  ∀ (cmd : Byte) (a b : State),
    a.bytesWritten.toNat ≤ a.maxLen → a.bytesWritten.toNat ≤ b.maxLen → a.crcEnabled = b.crcEnabled →
    b.unEscaping = false → b.headerLength = 2#2 ∨ b.headerLength = 3#2 →
    ∃ a' b' : State,
      exec (.txFrame cmd) a = .next a' ∧
      receiveAll (a'.emitted.drop a.emitted.length) b = .next b' ∧
      b'.events = b.events ++ [.rxPacket cmd a.bytesWritten] ∧
      ∀ k : Nat, k < a.bytesWritten.toNat → b'.payloadByte k = a.payloadByte k

/-- 70_reset_and_hazards.md section 3 (R262): a sender without CRC is never heard by a receiver that expects one;
the next boundary discards the packet with no event. -/
def Obligations.FrameWithoutCrcIsNeverDeliveredToACrcReceiver : Prop :=
  ∀ (cmd : Byte) (p : List Byte) (s : State),
    s.crcEnabled = true → s.unEscaping = false → s.headerLength = 2#2 ∨ s.headerLength = 3#2 →
    p.length ≤ s.maxLen →
    ∃ t : State,
      receiveAll (frame false cmd p ++ [0x7E#8]) s = .next t ∧ t.events = s.events ∧
      t.bytesReceived = 0#16 ∧ t.rxCrc = 0xFFFF#16

/-! ## The CRC -/

/-- 43_crc16.md section 2 (R190, the loop marked there as general knowledge), with the model's choice to record what is
returned (log 11): the byte into the low half, then eight shifts, each XORing the polynomial if the bit shifted out
was 1; the update depends on `c` and `b` only through their XOR. -/
def Obligations.CrcUpdateIsEightConditionalShifts : Prop :=
  (∀ (c : Word16) (b : Byte) (s : State),
    exec (.crc16Update c b) s = .next { s with results := s.results ++ [.crc (crc16Update c b)] }) ∧
  (∀ (c : Word16) (b : Byte),
    crc16Update c b = (fun x : Word16 => if x.getLsbD 0 = true then (x >>> 1) ^^^ 0xA001#16 else x >>> 1)^[8]
      (c ^^^ b.setWidth 16) ∧
    crc16Update c b = crc16Update (c ^^^ b.setWidth 16) 0#8)

/-- 43_crc16.md section 2 (R193): the residue is zero exactly when the two bytes after the message are its CRC, low byte
first. -/
def Obligations.ResidueIsZeroExactlyForTheRightCrc : Prop :=
  ∀ (m : List Byte) (x y : Byte),
    crc16 (m ++ [x, y]) = 0#16 ↔ x = lo8 (crc16 m) ∧ y = hi8 (crc16 m)

/-- 70_reset_and_hazards.md section 3 (R266, its positive half): one changed logical byte in a span that stays the same
always changes the CRC over it. -/
def Obligations.OneChangedByteInTheSameSpanIsDetected : Prop :=
  ∀ (before after : List Byte) (x y : Byte), x ≠ y →
    crc16 (before ++ x :: after) ≠ crc16 (before ++ y :: after)

/-- 70_reset_and_hazards.md section 3 (R266) and 90_conflicts.md C8: one corrupted raw byte of a good frame can make a
decoder with the CRC enabled deliver a packet that was not sent, so the source's property 3 is no theorem. The
receiver is sound and idle, has no escape pending and no event behind it, and has a buffer that holds the payload
sent; the packet it delivers has another length. (The spec's vector T19, from the state after reset, is such a case.)
-/
def Obligations.OneCorruptedByteCanBeDelivered : Prop :=
  ∃ (cmd : Byte) (p : List Byte) (at' : Nat) (b : Byte) (s t : State),
    SoundState s ∧ s.unEscaping = false ∧ s.crcEnabled = true ∧ s.events = [] ∧ s.phase = .idle ∧
    p.length ≤ s.maxLen ∧ at' < (frame true cmd p).length ∧ (frame true cmd p).getD at' b ≠ b ∧
    receiveAll ((frame true cmd p).set at' b) s = .next t ∧
    ∃ n : Word16, .rxPacket cmd n ∈ t.events ∧ n.toNat ≠ p.length

/-! ## Events -/

/-- 60_exceptions.md sections 3 and 4 (R227, R228) and 42_packet_decoder.md section 1 (R150): one RX.BYTE raises at
most one event, RxPacket, RxError(6) or RxError(7), and each leaves the state its table says. -/
def Obligations.EventsLeaveTheStateOfTheirTable : Prop :=
  ∀ (b : Byte) (s t : State), exec (.rxByte b) s = .next t →
    t.events = s.events ∨
    (∃ n cmd, t.events = s.events ++ [.rxPacket cmd n] ∧ cmd = t.packetCmd ∧ n = t.payloadLength ∧
      t.bytesReceived = 0#16 ∧ t.rxCrc = 0xFFFF#16 ∧ t.rxDrop = false ∧ t.bytesRead = 0#16 ∧
      t.bytesWritten = 0#16) ∨
    (t.events = s.events ++ [.rxError 7#8] ∧ s.crcEnabled = true ∧
      t.bytesReceived = 0#16 ∧ t.rxCrc = 0xFFFF#16 ∧ t.rxDrop = false ∧ t.bytesRead = 0#16 ∧
      t.bytesWritten = 0#16) ∨
    (t.events = s.events ++ [.rxError 6#8] ∧ s.maxLen < t.payloadLength.toNat ∧
      t.bytesReceived = 0#16 ∧ t.rxCrc = 0xFFFF#16 ∧ t.rxDrop = true ∧ t.bytesRead = s.bytesRead ∧
      t.bytesWritten = s.bytesWritten ∧ t.payload = s.payload)

/-! ## Frames of all rows -/

/-- 10_state.md section 1 (R20, the column "written by") with the model's own fields (log 6, log 10, log 11): over all
36 rows, what each register is written by. The two cursors are written by a decoder row only at COMPLETE. RESET writes
`packet_cmd` too (R38, any value), DEC.BYTE alone moves `un_escaping` (log 11), and the buffer is
Obligations.OnlyTheDecodersIndexIsStoredTo. -/
def Obligations.RegistersAreWrittenOnlyByTheirWriters : Prop :=
  ∀ (i : Instr) (s t : State), exec i s = .next t →
    t.cfg = s.cfg ∧ t.pending = s.pending ∧
    (isReset i = false → t.crcEnabled = s.crcEnabled ∧ t.resetCount = s.resetCount) ∧
    (isReset i = false → isTxFrame i = false → t.txCrc = s.txCrc) ∧
    (mayEmit i = false → t.emitted = s.emitted) ∧
    (mayAnswer i = false → t.results = s.results) ∧
    (isReset i = false → isTxFrame i = false → isAppend i = false →
      t.bytesWritten = s.bytesWritten ∨ mayComplete i = true ∧ CompletedFrame s t) ∧
    (isReset i = false → t.bytesRead = s.bytesRead ∨ mayComplete i = true ∧ CompletedFrame s t) ∧
    (isReset i = false → isTxFrame i = false → s.phase ≠ .idle → t.packetCmd = s.packetCmd) ∧
    (isReset i = false → s.phase ≠ .len1 → t.headerLength = s.headerLength) ∧
    (isReset i = false → isTxFrame i = false → s.phase ≠ .len1 → s.phase ≠ .len2 →
      t.payloadLength = s.payloadLength) ∧
    (isReset i = false → isReceive i = false →
      t.bytesReceived = s.bytesReceived ∧ t.rxCrc = s.rxCrc ∧ t.rxDrop = s.rxDrop ∧
      t.headerLength = s.headerLength ∧
      (isTxFrame i = false → t.packetCmd = s.packetCmd ∧ t.payloadLength = s.payloadLength)) ∧
    (isReset i = false → isReceive i = false → isDecByte i = false → t.unEscaping = s.unEscaping)

/-- 20_memory.md sections 1 and 4 (R61, R74): over all rows but RESET and BUF.APPEND, every byte of the buffer reads as
before, except the one at the decoder's index in phase PAYLOAD. -/
def Obligations.OnlyTheDecodersIndexIsStoredTo : Prop :=
  ∀ (i : Instr) (s t : State), exec i s = .next t → isReset i = false → isAppend i = false →
    ∀ a : Nat, s.phase ≠ .payload ∨ a ≠ s.bytesReceived.toNat - s.headerLength.toNat →
      t.payloadByte a = s.payloadByte a

/-- 70_reset_and_hazards.md section 3 (R258): TX.FRAME between two received bytes zeroes the length the decoder is
using; a decoder already past the new total is in OVERRUN and its other registers are as they were. -/
def Obligations.TxFrameInMidFrameOverrunsTheDecoder : Prop :=
  ∀ (cmd : Byte) (s : State), s.bytesWritten.toNat ≤ s.maxLen → s.rxDrop = false →
    2 ≤ s.bytesReceived.toNat → ¬(s.bytesReceived = 2#16 ∧ s.headerLength = 3#2) →
    s.headerLength.toNat + crcLength s.crcEnabled ≤ s.bytesReceived.toNat →
    ∃ t : State, exec (.txFrame cmd) s = .next t ∧ t.phase = .overrun ∧
      t.total = s.headerLength.toNat + crcLength s.crcEnabled ∧
      t.bytesReceived = s.bytesReceived ∧ t.rxCrc = s.rxCrc ∧ t.events = s.events

/-! ## Invariants -/

/-- 10_state.md section 6 (R37): the invariant holds right after reset. -/
def Obligations.ResetStateMeetsTheInvariant : Prop := SoundState State.reset

/-- 10_state.md section 6 (R37, with 20_memory.md R66 and the canonical form of the buffer): every step from every state
that meets the invariant, not only from a state a run reaches, keeps it. -/
def Obligations.EveryStepKeepsTheInvariant : Prop :=
  ∀ s t : State, SoundState s → step s = .next t → SoundState t

/-- 20_memory.md section 3 (R67) and 44_system_ops.md section 1 (R201): from such a state no step faults: no index
outside the buffer is ever formed. -/
def Obligations.NoStepFaultsUnderTheInvariant : Prop :=
  ∀ s : State, SoundState s → NoFault (step s)

/-- 44_system_ops.md section 1 (R201: "the MFC refuses none") and 42_packet_decoder.md R150 (total): every well-formed
instruction that the state selects and that stands in its position goes on, and the state after it meets the
invariant. All 36 rows: RX.FLAG, RX.ESC, RX.UNESC, RX.LIT, ENC.ESC (both), ENC.LIT, ESC.PAIR.7E, ESC.PAIR.7D,
LEN.SHORT, LEN.LONG, CMD.REQUEST, CMD.REPLY, CMD.STD.80 to 86, RX.CMD, RX.LEN1, RX.LEN2, RX.PAYLOAD, RX.CRC,
RX.OVERRUN, RX.DROP, RX.COMPLETE, RESET, BUF.APPEND, TX.FRAME, RX.BYTE, ENC.BYTE, DEC.BYTE, CRC16.UPDATE;
RX.OVERSIZE's test holds in no such state, so its completion is Obligations.OversizeRowRejectsTheFrame. The four
operations are selected by every state. (What the rows of the model's own words and of parts of RX.BYTE do alone: log
7, log 12, log 13.) -/
def Obligations.EverySelectedInstructionGoesOn : Prop :=
  ∀ (i : Instr) (s : State), SoundState s → i.wellFormed = true → i.selectedBy s.selector = true → InPosition s i →
    ∃ t : State, exec i s = .next t ∧ SoundState t

/-- 42_packet_decoder.md section 3 (R171) and 10_state.md R37 (g): if TX.FRAME is not executed while two bytes or
more have been received, the decoder is never past the end of its frame, and then it is not in phase OVERRUN. -/
def Obligations.DecoderStaysWithinItsFrame : Prop :=
  (∀ (i : Instr) (s t : State), SoundState s → WithinFrame s → exec i s = .next t →
    isTxFrame i = false ∨ s.bytesReceived.toNat < 2 → WithinFrame t ∧ t.bytesReceived.toNat ≤ 32771) ∧
  (∀ s : State, SoundState s → WithinFrame s → s.phase ≠ .overrun)

/-! ## Decoding, encoding and stepping -/

/-- Decode and encode agree: every well-formed instruction, at every value of its operands, is what the decoder
reads from its word in every state that selects it (30_encoding.md R94, R95, R100; the words of the rows without
bits are the model's, log 7). -/
def Obligations.DecodingAnEncodedInstructionGivesItBack : Prop :=
  ∀ (sel : Selector) (i : Instr), i.wellFormed = true → i.selectedBy sel = true →
    decode sel (encode i) = .ok i

/-- 30_encoding.md section 5 (R100: "the row applies when `(value & mask) = match` and no row of lower `priority` number
applies"), the ports, and the words of the rows of PHASE, OP and FUNC, being the model's own (log 7): each word has one
meaning. What the decoder reads is well-formed, selected, and encodes to that very word. -/
def Obligations.EncodingADecodedWordGivesItBack : Prop :=
  ∀ (sel : Selector) (w : CodeWord) (i : Instr), decode sel w = .ok i →
    i.wellFormed = true ∧ i.selectedBy sel = true ∧ encode i = w

/-- Words written out from 30_encoding.md sections 2 to 5 (R81, R84, R85, R91, R94, R95) decode to their rows. -/
def Obligations.WrittenOutWordsDecodeToTheirRows : Prop :=
  decode ⟨false, .idle, .neither⟩ ⟨.raw8, [0b01111110#8]⟩ = .ok .rxFlag ∧
  decode ⟨true, .idle, .neither⟩ ⟨.raw8, [0b01111110#8]⟩ = .ok (.rxUnesc 0x7E#8) ∧
  decode ⟨true, .payload, .neither⟩ ⟨.raw8, [0b01111101#8]⟩ = .ok .rxEsc ∧
  decode ⟨false, .idle, .neither⟩ ⟨.raw8, [0b10100000#8]⟩ = .ok (.rxLit 0xA0#8) ∧
  decode ⟨false, .idle, .neither⟩ ⟨.log8, [0b01111101#8]⟩ = .ok .encEsc7D ∧
  decode ⟨false, .idle, .neither⟩ ⟨.esc16, [0b01111101#8, 0b01011110#8]⟩ = .ok .escPair7E ∧
  decode ⟨false, .idle, .neither⟩ ⟨.len1, [0b01111111#8]⟩ = .ok (.lenShort 127#7) ∧
  decode ⟨false, .idle, .neither⟩ ⟨.len1, [0b10000000#8, 0b11001000#8]⟩ = .ok (.lenLong 0#7 200#8) ∧
  decode ⟨false, .idle, .neither⟩ ⟨.cmd8, [0b10000110#8]⟩ = .ok .cmdStd86 ∧
  decode ⟨false, .idle, .neither⟩ ⟨.cmd8, [0b10000111#8]⟩ = .ok (.cmdRequest 7#7) ∧
  decode ⟨false, .idle, .neither⟩ ⟨.cmd8, [0b00000111#8]⟩ = .ok (.cmdReply 7#7)

/-- A step runs the decoded instruction, with the input taken off; with nothing pending the machine does nothing
(70_reset_and_hazards.md R251, R272). The queue (log 6), the refusal of a word that is no row's encoding (log 7; the
MFC itself refuses no operation, 44_system_ops.md R201), and an action of the environment being done by a step in the
same way (log 16) are the model's choices. -/
def Obligations.StepRunsTheDecodedInstruction : Prop :=
  ∀ s : State,
    (∀ (w : CodeWord) (rest : List Input) (i : Instr),
      s.pending = .word w :: rest → decode s.selector w = .ok i → step s = exec i { s with pending := rest }) ∧
    (∀ (w : CodeWord) (rest : List Input) (r : DecodeReject),
      s.pending = .word w :: rest → decode s.selector w = .rejected r → step s = .refused (.undecodable r)) ∧
    (∀ (a : EnvAction) (rest : List Input),
      s.pending = .act a :: rest → step s = envAct a { s with pending := rest }) ∧
    (s.pending = [] → step s = .next s)

/-- A bare word of the opcode table, placed by the model (log 6, log 15), is decoded and run by the very next step,
whatever the state; the placing moves only what the format's position needs. -/
def Obligations.PlacedTableWordIsRunByTheNextStep : Prop :=
  ∀ (s : State) (nbits w : Nat) (i : Instr), decodeTableWord nbits w = some i →
    step (s.withFetchWord nbits w) = exec i (placeFor (tablePort nbits w) s)

/-! ## The environment's own actions (44_system_ops.md section 3; outside the MFC, log 16) -/

/-- 44_system_ops.md section 1 (R203): `serialize` is all or nothing; where it fits it is appends in order of index.
R203 says only that the whole fails and writes nothing; that the failure is the event BufError(6), and that
`serialize` is an action done in one step, are the model's choices (log 16). -/
def Obligations.SerializeIsAllOrNothing : Prop :=
  ∀ (bs : List Byte) (s : State),
    (s.maxLen < s.bytesWritten.toNat + bs.length →
      envAct (.serialize bs) s = .next { s with events := s.events ++ [.bufError 6#8] }) ∧
    (s.bytesWritten.toNat + bs.length ≤ s.maxLen →
      ∃ t : State,
        envAct (.serialize bs) s = .next t ∧
        execAll (bs.map Instr.bufAppend) s = .next t ∧
        t.bytesWritten.toNat = s.bytesWritten.toNat + bs.length ∧ t.events = s.events ∧
        ∀ k : Nat, k < bs.length → t.payloadByte (s.bytesWritten.toNat + k) = bs.getD k 0#8)

/-- 44_system_ops.md section 3 (R207, R208) with entries U14 and U15 of 93_implementation_defined.md (log 16): a read
of one, two, four or `n` bytes within the packet returns the bytes from the cursor on, the first one first, and moves
only the cursor; one past the packet is refused; a string read returns the bytes before the first zero and moves past
it, and is refused where the packet holds none; and the Dispatcher's two direct writes. -/
def Obligations.CursorReadsAndDispatcherWrites : Prop :=
  ∀ s : State,
    let cursor := s.bytesRead.toNat
    let bound := min s.payloadLength.toNat s.maxLen
    let reads := fun (n moved : Nat) =>
      (Host.Outcome.next
        { s with bytesRead := BitVec.ofNat 16 (cursor + moved),
                 results := s.results ++ [.bytes ((List.range n).map fun k => s.payloadByte (cursor + k))] } :
        Host.Outcome State Fault Refusal)
    (cursor + 1 ≤ bound → envAct .readU8 s = reads 1 1) ∧
    (bound < cursor + 1 → envAct .readU8 s = .refused .readPastPacket) ∧
    (cursor + 2 ≤ bound → envAct .readU16 s = reads 2 2) ∧
    (bound < cursor + 2 → envAct .readU16 s = .refused .readPastPacket) ∧
    (cursor + 4 ≤ bound → envAct .readF32 s = reads 4 4) ∧
    (bound < cursor + 4 → envAct .readF32 s = .refused .readPastPacket) ∧
    (∀ n : Nat, cursor + n ≤ bound → envAct (.readArray n) s = reads n n) ∧
    (∀ n : Nat, bound < cursor + n → envAct (.readArray n) s = .refused .readPastPacket) ∧
    (∀ n : Nat, cursor + n < bound → s.payloadByte (cursor + n) = 0#8 →
      (∀ k : Nat, k < n → s.payloadByte (cursor + k) ≠ 0#8) → envAct .readString s = reads n (n + 1)) ∧
    ((∀ i : Nat, cursor ≤ i → i < bound → s.payloadByte i ≠ 0#8) →
      envAct .readString s = .refused .readPastPacket) ∧
    envAct .clearRequestBit s = .next { s with packetCmd := s.packetCmd &&& 0x7F#8 } ∧
    (s.payloadLength ≠ 0#16 →
      envAct .stripReturnCode s = .next { s with payloadLength := s.payloadLength - 1#16 }) ∧
    (s.payloadLength = 0#16 →
      envAct .stripReturnCode s = .next { s with events := s.events ++ [.dispatchError 1#8] })
end

