-- ==== Sys2Proof/Laws/State.lean ====
section
/-! SUPPORT. What each field holds after each update: one lemma per field per operation, so that no proof unfolds a
record update. -/

namespace Sys2Proof

/-! ### The constants as numerals: the one spelling the laws are stated in -/

@[simp] theorem Config.frameBoundary_eq : Config.frameBoundary = 0x7E#8 := rfl
@[simp] theorem Config.controlEscape_eq : Config.controlEscape = 0x7D#8 := rfl
@[simp] theorem Config.escapeXor_eq : Config.escapeXor = 0x20#8 := rfl
@[simp] theorem Config.crcInit_eq : Config.crcInit = 0xFFFF#16 := rfl
@[simp] theorem Config.crcPoly_eq : Config.crcPoly = 0xA001#16 := rfl

end Sys2Proof

namespace Sys2Proof.Machine

/-! ### storePayload -/

@[simp] theorem storePayload_packetCmd (i : Nat) (v : Byte) (s : State) : (storePayload i v s).packetCmd = s.packetCmd := rfl
@[simp] theorem storePayload_headerLength (i : Nat) (v : Byte) (s : State) : (storePayload i v s).headerLength = s.headerLength := rfl
@[simp] theorem storePayload_payloadLength (i : Nat) (v : Byte) (s : State) : (storePayload i v s).payloadLength = s.payloadLength := rfl
@[simp] theorem storePayload_bytesReceived (i : Nat) (v : Byte) (s : State) : (storePayload i v s).bytesReceived = s.bytesReceived := rfl
@[simp] theorem storePayload_unEscaping (i : Nat) (v : Byte) (s : State) : (storePayload i v s).unEscaping = s.unEscaping := rfl
@[simp] theorem storePayload_rxCrc (i : Nat) (v : Byte) (s : State) : (storePayload i v s).rxCrc = s.rxCrc := rfl
@[simp] theorem storePayload_rxDrop (i : Nat) (v : Byte) (s : State) : (storePayload i v s).rxDrop = s.rxDrop := rfl
@[simp] theorem storePayload_txCrc (i : Nat) (v : Byte) (s : State) : (storePayload i v s).txCrc = s.txCrc := rfl
@[simp] theorem storePayload_bytesWritten (i : Nat) (v : Byte) (s : State) : (storePayload i v s).bytesWritten = s.bytesWritten := rfl
@[simp] theorem storePayload_bytesRead (i : Nat) (v : Byte) (s : State) : (storePayload i v s).bytesRead = s.bytesRead := rfl
@[simp] theorem storePayload_payload (i : Nat) (v : Byte) (s : State) : (storePayload i v s).payload = Memory.write s.payload i v := rfl
@[simp] theorem storePayload_crcEnabled (i : Nat) (v : Byte) (s : State) : (storePayload i v s).crcEnabled = s.crcEnabled := rfl
@[simp] theorem storePayload_cfg (i : Nat) (v : Byte) (s : State) : (storePayload i v s).cfg = s.cfg := rfl
@[simp] theorem storePayload_resetCount (i : Nat) (v : Byte) (s : State) : (storePayload i v s).resetCount = s.resetCount := rfl
@[simp] theorem storePayload_emitted (i : Nat) (v : Byte) (s : State) : (storePayload i v s).emitted = s.emitted := rfl
@[simp] theorem storePayload_events (i : Nat) (v : Byte) (s : State) : (storePayload i v s).events = s.events := rfl
@[simp] theorem storePayload_results (i : Nat) (v : Byte) (s : State) : (storePayload i v s).results = s.results := rfl
@[simp] theorem storePayload_pending (i : Nat) (v : Byte) (s : State) : (storePayload i v s).pending = s.pending := rfl
@[simp] theorem storePayload_maxLen (i : Nat) (v : Byte) (s : State) : (storePayload i v s).maxLen = s.maxLen := rfl

/-! ### emitRaw -/

@[simp] theorem emitRaw_packetCmd (bs : List Byte) (s : State) : (emitRaw bs s).packetCmd = s.packetCmd := rfl
@[simp] theorem emitRaw_headerLength (bs : List Byte) (s : State) : (emitRaw bs s).headerLength = s.headerLength := rfl
@[simp] theorem emitRaw_payloadLength (bs : List Byte) (s : State) : (emitRaw bs s).payloadLength = s.payloadLength := rfl
@[simp] theorem emitRaw_bytesReceived (bs : List Byte) (s : State) : (emitRaw bs s).bytesReceived = s.bytesReceived := rfl
@[simp] theorem emitRaw_unEscaping (bs : List Byte) (s : State) : (emitRaw bs s).unEscaping = s.unEscaping := rfl
@[simp] theorem emitRaw_rxCrc (bs : List Byte) (s : State) : (emitRaw bs s).rxCrc = s.rxCrc := rfl
@[simp] theorem emitRaw_rxDrop (bs : List Byte) (s : State) : (emitRaw bs s).rxDrop = s.rxDrop := rfl
@[simp] theorem emitRaw_txCrc (bs : List Byte) (s : State) : (emitRaw bs s).txCrc = s.txCrc := rfl
@[simp] theorem emitRaw_bytesWritten (bs : List Byte) (s : State) : (emitRaw bs s).bytesWritten = s.bytesWritten := rfl
@[simp] theorem emitRaw_bytesRead (bs : List Byte) (s : State) : (emitRaw bs s).bytesRead = s.bytesRead := rfl
@[simp] theorem emitRaw_payload (bs : List Byte) (s : State) : (emitRaw bs s).payload = s.payload := rfl
@[simp] theorem emitRaw_crcEnabled (bs : List Byte) (s : State) : (emitRaw bs s).crcEnabled = s.crcEnabled := rfl
@[simp] theorem emitRaw_cfg (bs : List Byte) (s : State) : (emitRaw bs s).cfg = s.cfg := rfl
@[simp] theorem emitRaw_resetCount (bs : List Byte) (s : State) : (emitRaw bs s).resetCount = s.resetCount := rfl
@[simp] theorem emitRaw_emitted (bs : List Byte) (s : State) : (emitRaw bs s).emitted = s.emitted ++ bs := rfl
@[simp] theorem emitRaw_events (bs : List Byte) (s : State) : (emitRaw bs s).events = s.events := rfl
@[simp] theorem emitRaw_results (bs : List Byte) (s : State) : (emitRaw bs s).results = s.results := rfl
@[simp] theorem emitRaw_pending (bs : List Byte) (s : State) : (emitRaw bs s).pending = s.pending := rfl
@[simp] theorem emitRaw_maxLen (bs : List Byte) (s : State) : (emitRaw bs s).maxLen = s.maxLen := rfl

/-! ### raise -/

@[simp] theorem raise_packetCmd (e : Event) (s : State) : (raise e s).packetCmd = s.packetCmd := rfl
@[simp] theorem raise_headerLength (e : Event) (s : State) : (raise e s).headerLength = s.headerLength := rfl
@[simp] theorem raise_payloadLength (e : Event) (s : State) : (raise e s).payloadLength = s.payloadLength := rfl
@[simp] theorem raise_bytesReceived (e : Event) (s : State) : (raise e s).bytesReceived = s.bytesReceived := rfl
@[simp] theorem raise_unEscaping (e : Event) (s : State) : (raise e s).unEscaping = s.unEscaping := rfl
@[simp] theorem raise_rxCrc (e : Event) (s : State) : (raise e s).rxCrc = s.rxCrc := rfl
@[simp] theorem raise_rxDrop (e : Event) (s : State) : (raise e s).rxDrop = s.rxDrop := rfl
@[simp] theorem raise_txCrc (e : Event) (s : State) : (raise e s).txCrc = s.txCrc := rfl
@[simp] theorem raise_bytesWritten (e : Event) (s : State) : (raise e s).bytesWritten = s.bytesWritten := rfl
@[simp] theorem raise_bytesRead (e : Event) (s : State) : (raise e s).bytesRead = s.bytesRead := rfl
@[simp] theorem raise_payload (e : Event) (s : State) : (raise e s).payload = s.payload := rfl
@[simp] theorem raise_crcEnabled (e : Event) (s : State) : (raise e s).crcEnabled = s.crcEnabled := rfl
@[simp] theorem raise_cfg (e : Event) (s : State) : (raise e s).cfg = s.cfg := rfl
@[simp] theorem raise_resetCount (e : Event) (s : State) : (raise e s).resetCount = s.resetCount := rfl
@[simp] theorem raise_emitted (e : Event) (s : State) : (raise e s).emitted = s.emitted := rfl
@[simp] theorem raise_events (e : Event) (s : State) : (raise e s).events = s.events ++ [e] := rfl
@[simp] theorem raise_results (e : Event) (s : State) : (raise e s).results = s.results := rfl
@[simp] theorem raise_pending (e : Event) (s : State) : (raise e s).pending = s.pending := rfl
@[simp] theorem raise_maxLen (e : Event) (s : State) : (raise e s).maxLen = s.maxLen := rfl

/-! ### answer -/

@[simp] theorem answer_packetCmd (r : Result) (s : State) : (answer r s).packetCmd = s.packetCmd := rfl
@[simp] theorem answer_headerLength (r : Result) (s : State) : (answer r s).headerLength = s.headerLength := rfl
@[simp] theorem answer_payloadLength (r : Result) (s : State) : (answer r s).payloadLength = s.payloadLength := rfl
@[simp] theorem answer_bytesReceived (r : Result) (s : State) : (answer r s).bytesReceived = s.bytesReceived := rfl
@[simp] theorem answer_unEscaping (r : Result) (s : State) : (answer r s).unEscaping = s.unEscaping := rfl
@[simp] theorem answer_rxCrc (r : Result) (s : State) : (answer r s).rxCrc = s.rxCrc := rfl
@[simp] theorem answer_rxDrop (r : Result) (s : State) : (answer r s).rxDrop = s.rxDrop := rfl
@[simp] theorem answer_txCrc (r : Result) (s : State) : (answer r s).txCrc = s.txCrc := rfl
@[simp] theorem answer_bytesWritten (r : Result) (s : State) : (answer r s).bytesWritten = s.bytesWritten := rfl
@[simp] theorem answer_bytesRead (r : Result) (s : State) : (answer r s).bytesRead = s.bytesRead := rfl
@[simp] theorem answer_payload (r : Result) (s : State) : (answer r s).payload = s.payload := rfl
@[simp] theorem answer_crcEnabled (r : Result) (s : State) : (answer r s).crcEnabled = s.crcEnabled := rfl
@[simp] theorem answer_cfg (r : Result) (s : State) : (answer r s).cfg = s.cfg := rfl
@[simp] theorem answer_resetCount (r : Result) (s : State) : (answer r s).resetCount = s.resetCount := rfl
@[simp] theorem answer_emitted (r : Result) (s : State) : (answer r s).emitted = s.emitted := rfl
@[simp] theorem answer_events (r : Result) (s : State) : (answer r s).events = s.events := rfl
@[simp] theorem answer_results (r : Result) (s : State) : (answer r s).results = s.results ++ [r] := rfl
@[simp] theorem answer_pending (r : Result) (s : State) : (answer r s).pending = s.pending := rfl
@[simp] theorem answer_maxLen (r : Result) (s : State) : (answer r s).maxLen = s.maxLen := rfl

/-! ### boundaryReset -/

@[simp] theorem boundaryReset_packetCmd (s : State) : (boundaryReset s).packetCmd = s.packetCmd := rfl
@[simp] theorem boundaryReset_headerLength (s : State) : (boundaryReset s).headerLength = s.headerLength := rfl
@[simp] theorem boundaryReset_payloadLength (s : State) : (boundaryReset s).payloadLength = s.payloadLength := rfl
@[simp] theorem boundaryReset_bytesReceived (s : State) : (boundaryReset s).bytesReceived = 0#16 := rfl
@[simp] theorem boundaryReset_unEscaping (s : State) : (boundaryReset s).unEscaping = s.unEscaping := rfl
@[simp] theorem boundaryReset_rxCrc (s : State) : (boundaryReset s).rxCrc = 0xFFFF#16 := rfl
@[simp] theorem boundaryReset_rxDrop (s : State) : (boundaryReset s).rxDrop = false := rfl
@[simp] theorem boundaryReset_txCrc (s : State) : (boundaryReset s).txCrc = s.txCrc := rfl
@[simp] theorem boundaryReset_bytesWritten (s : State) : (boundaryReset s).bytesWritten = s.bytesWritten := rfl
@[simp] theorem boundaryReset_bytesRead (s : State) : (boundaryReset s).bytesRead = s.bytesRead := rfl
@[simp] theorem boundaryReset_payload (s : State) : (boundaryReset s).payload = s.payload := rfl
@[simp] theorem boundaryReset_crcEnabled (s : State) : (boundaryReset s).crcEnabled = s.crcEnabled := rfl
@[simp] theorem boundaryReset_cfg (s : State) : (boundaryReset s).cfg = s.cfg := rfl
@[simp] theorem boundaryReset_resetCount (s : State) : (boundaryReset s).resetCount = s.resetCount := rfl
@[simp] theorem boundaryReset_emitted (s : State) : (boundaryReset s).emitted = s.emitted := rfl
@[simp] theorem boundaryReset_events (s : State) : (boundaryReset s).events = s.events := rfl
@[simp] theorem boundaryReset_results (s : State) : (boundaryReset s).results = s.results := rfl
@[simp] theorem boundaryReset_pending (s : State) : (boundaryReset s).pending = s.pending := rfl
@[simp] theorem boundaryReset_maxLen (s : State) : (boundaryReset s).maxLen = s.maxLen := rfl

/-! ### foldRxCrc -/

@[simp] theorem foldRxCrc_packetCmd (v : Byte) (s : State) : (foldRxCrc v s).packetCmd = s.packetCmd := rfl
@[simp] theorem foldRxCrc_headerLength (v : Byte) (s : State) : (foldRxCrc v s).headerLength = s.headerLength := rfl
@[simp] theorem foldRxCrc_payloadLength (v : Byte) (s : State) : (foldRxCrc v s).payloadLength = s.payloadLength := rfl
@[simp] theorem foldRxCrc_bytesReceived (v : Byte) (s : State) : (foldRxCrc v s).bytesReceived = s.bytesReceived := rfl
@[simp] theorem foldRxCrc_unEscaping (v : Byte) (s : State) : (foldRxCrc v s).unEscaping = s.unEscaping := rfl
@[simp] theorem foldRxCrc_rxCrc (v : Byte) (s : State) : (foldRxCrc v s).rxCrc = crc16Update s.rxCrc v := rfl
@[simp] theorem foldRxCrc_rxDrop (v : Byte) (s : State) : (foldRxCrc v s).rxDrop = s.rxDrop := rfl
@[simp] theorem foldRxCrc_txCrc (v : Byte) (s : State) : (foldRxCrc v s).txCrc = s.txCrc := rfl
@[simp] theorem foldRxCrc_bytesWritten (v : Byte) (s : State) : (foldRxCrc v s).bytesWritten = s.bytesWritten := rfl
@[simp] theorem foldRxCrc_bytesRead (v : Byte) (s : State) : (foldRxCrc v s).bytesRead = s.bytesRead := rfl
@[simp] theorem foldRxCrc_payload (v : Byte) (s : State) : (foldRxCrc v s).payload = s.payload := rfl
@[simp] theorem foldRxCrc_crcEnabled (v : Byte) (s : State) : (foldRxCrc v s).crcEnabled = s.crcEnabled := rfl
@[simp] theorem foldRxCrc_cfg (v : Byte) (s : State) : (foldRxCrc v s).cfg = s.cfg := rfl
@[simp] theorem foldRxCrc_resetCount (v : Byte) (s : State) : (foldRxCrc v s).resetCount = s.resetCount := rfl
@[simp] theorem foldRxCrc_emitted (v : Byte) (s : State) : (foldRxCrc v s).emitted = s.emitted := rfl
@[simp] theorem foldRxCrc_events (v : Byte) (s : State) : (foldRxCrc v s).events = s.events := rfl
@[simp] theorem foldRxCrc_results (v : Byte) (s : State) : (foldRxCrc v s).results = s.results := rfl
@[simp] theorem foldRxCrc_pending (v : Byte) (s : State) : (foldRxCrc v s).pending = s.pending := rfl
@[simp] theorem foldRxCrc_maxLen (v : Byte) (s : State) : (foldRxCrc v s).maxLen = s.maxLen := rfl

/-! ### takeCommand -/

@[simp] theorem takeCommand_packetCmd (v : Byte) (s : State) : (takeCommand v s).packetCmd = v := rfl
@[simp] theorem takeCommand_headerLength (v : Byte) (s : State) : (takeCommand v s).headerLength = s.headerLength := rfl
@[simp] theorem takeCommand_payloadLength (v : Byte) (s : State) : (takeCommand v s).payloadLength = s.payloadLength := rfl
@[simp] theorem takeCommand_bytesReceived (v : Byte) (s : State) : (takeCommand v s).bytesReceived = s.bytesReceived := rfl
@[simp] theorem takeCommand_unEscaping (v : Byte) (s : State) : (takeCommand v s).unEscaping = s.unEscaping := rfl
@[simp] theorem takeCommand_rxCrc (v : Byte) (s : State) : (takeCommand v s).rxCrc = s.rxCrc := rfl
@[simp] theorem takeCommand_rxDrop (v : Byte) (s : State) : (takeCommand v s).rxDrop = s.rxDrop := rfl
@[simp] theorem takeCommand_txCrc (v : Byte) (s : State) : (takeCommand v s).txCrc = s.txCrc := rfl
@[simp] theorem takeCommand_bytesWritten (v : Byte) (s : State) : (takeCommand v s).bytesWritten = s.bytesWritten := rfl
@[simp] theorem takeCommand_bytesRead (v : Byte) (s : State) : (takeCommand v s).bytesRead = s.bytesRead := rfl
@[simp] theorem takeCommand_payload (v : Byte) (s : State) : (takeCommand v s).payload = s.payload := rfl
@[simp] theorem takeCommand_crcEnabled (v : Byte) (s : State) : (takeCommand v s).crcEnabled = s.crcEnabled := rfl
@[simp] theorem takeCommand_cfg (v : Byte) (s : State) : (takeCommand v s).cfg = s.cfg := rfl
@[simp] theorem takeCommand_resetCount (v : Byte) (s : State) : (takeCommand v s).resetCount = s.resetCount := rfl
@[simp] theorem takeCommand_emitted (v : Byte) (s : State) : (takeCommand v s).emitted = s.emitted := rfl
@[simp] theorem takeCommand_events (v : Byte) (s : State) : (takeCommand v s).events = s.events := rfl
@[simp] theorem takeCommand_results (v : Byte) (s : State) : (takeCommand v s).results = s.results := rfl
@[simp] theorem takeCommand_pending (v : Byte) (s : State) : (takeCommand v s).pending = s.pending := rfl
@[simp] theorem takeCommand_maxLen (v : Byte) (s : State) : (takeCommand v s).maxLen = s.maxLen := rfl

/-! ### takeFirstLength -/

@[simp] theorem takeFirstLength_packetCmd (v : Byte) (s : State) : (takeFirstLength v s).packetCmd = s.packetCmd := rfl
@[simp] theorem takeFirstLength_headerLength (v : Byte) (s : State) : (takeFirstLength v s).headerLength = headerLengthOf v := rfl
@[simp] theorem takeFirstLength_payloadLength (v : Byte) (s : State) : (takeFirstLength v s).payloadLength = firstLengthOf v := rfl
@[simp] theorem takeFirstLength_bytesReceived (v : Byte) (s : State) : (takeFirstLength v s).bytesReceived = s.bytesReceived := rfl
@[simp] theorem takeFirstLength_unEscaping (v : Byte) (s : State) : (takeFirstLength v s).unEscaping = s.unEscaping := rfl
@[simp] theorem takeFirstLength_rxCrc (v : Byte) (s : State) : (takeFirstLength v s).rxCrc = s.rxCrc := rfl
@[simp] theorem takeFirstLength_rxDrop (v : Byte) (s : State) : (takeFirstLength v s).rxDrop = s.rxDrop := rfl
@[simp] theorem takeFirstLength_txCrc (v : Byte) (s : State) : (takeFirstLength v s).txCrc = s.txCrc := rfl
@[simp] theorem takeFirstLength_bytesWritten (v : Byte) (s : State) : (takeFirstLength v s).bytesWritten = s.bytesWritten := rfl
@[simp] theorem takeFirstLength_bytesRead (v : Byte) (s : State) : (takeFirstLength v s).bytesRead = s.bytesRead := rfl
@[simp] theorem takeFirstLength_payload (v : Byte) (s : State) : (takeFirstLength v s).payload = s.payload := rfl
@[simp] theorem takeFirstLength_crcEnabled (v : Byte) (s : State) : (takeFirstLength v s).crcEnabled = s.crcEnabled := rfl
@[simp] theorem takeFirstLength_cfg (v : Byte) (s : State) : (takeFirstLength v s).cfg = s.cfg := rfl
@[simp] theorem takeFirstLength_resetCount (v : Byte) (s : State) : (takeFirstLength v s).resetCount = s.resetCount := rfl
@[simp] theorem takeFirstLength_emitted (v : Byte) (s : State) : (takeFirstLength v s).emitted = s.emitted := rfl
@[simp] theorem takeFirstLength_events (v : Byte) (s : State) : (takeFirstLength v s).events = s.events := rfl
@[simp] theorem takeFirstLength_results (v : Byte) (s : State) : (takeFirstLength v s).results = s.results := rfl
@[simp] theorem takeFirstLength_pending (v : Byte) (s : State) : (takeFirstLength v s).pending = s.pending := rfl
@[simp] theorem takeFirstLength_maxLen (v : Byte) (s : State) : (takeFirstLength v s).maxLen = s.maxLen := rfl

/-! ### takeSecondLength -/

@[simp] theorem takeSecondLength_packetCmd (v : Byte) (s : State) : (takeSecondLength v s).packetCmd = s.packetCmd := rfl
@[simp] theorem takeSecondLength_headerLength (v : Byte) (s : State) : (takeSecondLength v s).headerLength = s.headerLength := rfl
@[simp] theorem takeSecondLength_payloadLength (v : Byte) (s : State) : (takeSecondLength v s).payloadLength = s.payloadLength + v.setWidth 16 := rfl
@[simp] theorem takeSecondLength_bytesReceived (v : Byte) (s : State) : (takeSecondLength v s).bytesReceived = s.bytesReceived := rfl
@[simp] theorem takeSecondLength_unEscaping (v : Byte) (s : State) : (takeSecondLength v s).unEscaping = s.unEscaping := rfl
@[simp] theorem takeSecondLength_rxCrc (v : Byte) (s : State) : (takeSecondLength v s).rxCrc = s.rxCrc := rfl
@[simp] theorem takeSecondLength_rxDrop (v : Byte) (s : State) : (takeSecondLength v s).rxDrop = s.rxDrop := rfl
@[simp] theorem takeSecondLength_txCrc (v : Byte) (s : State) : (takeSecondLength v s).txCrc = s.txCrc := rfl
@[simp] theorem takeSecondLength_bytesWritten (v : Byte) (s : State) : (takeSecondLength v s).bytesWritten = s.bytesWritten := rfl
@[simp] theorem takeSecondLength_bytesRead (v : Byte) (s : State) : (takeSecondLength v s).bytesRead = s.bytesRead := rfl
@[simp] theorem takeSecondLength_payload (v : Byte) (s : State) : (takeSecondLength v s).payload = s.payload := rfl
@[simp] theorem takeSecondLength_crcEnabled (v : Byte) (s : State) : (takeSecondLength v s).crcEnabled = s.crcEnabled := rfl
@[simp] theorem takeSecondLength_cfg (v : Byte) (s : State) : (takeSecondLength v s).cfg = s.cfg := rfl
@[simp] theorem takeSecondLength_resetCount (v : Byte) (s : State) : (takeSecondLength v s).resetCount = s.resetCount := rfl
@[simp] theorem takeSecondLength_emitted (v : Byte) (s : State) : (takeSecondLength v s).emitted = s.emitted := rfl
@[simp] theorem takeSecondLength_events (v : Byte) (s : State) : (takeSecondLength v s).events = s.events := rfl
@[simp] theorem takeSecondLength_results (v : Byte) (s : State) : (takeSecondLength v s).results = s.results := rfl
@[simp] theorem takeSecondLength_pending (v : Byte) (s : State) : (takeSecondLength v s).pending = s.pending := rfl
@[simp] theorem takeSecondLength_maxLen (v : Byte) (s : State) : (takeSecondLength v s).maxLen = s.maxLen := rfl

/-! ### rejectOversize -/

@[simp] theorem rejectOversize_packetCmd (s : State) : (rejectOversize s).packetCmd = s.packetCmd := rfl
@[simp] theorem rejectOversize_headerLength (s : State) : (rejectOversize s).headerLength = s.headerLength := rfl
@[simp] theorem rejectOversize_payloadLength (s : State) : (rejectOversize s).payloadLength = s.payloadLength := rfl
@[simp] theorem rejectOversize_bytesReceived (s : State) : (rejectOversize s).bytesReceived = 0#16 := rfl
@[simp] theorem rejectOversize_unEscaping (s : State) : (rejectOversize s).unEscaping = s.unEscaping := rfl
@[simp] theorem rejectOversize_rxCrc (s : State) : (rejectOversize s).rxCrc = 0xFFFF#16 := rfl
@[simp] theorem rejectOversize_rxDrop (s : State) : (rejectOversize s).rxDrop = true := rfl
@[simp] theorem rejectOversize_txCrc (s : State) : (rejectOversize s).txCrc = s.txCrc := rfl
@[simp] theorem rejectOversize_bytesWritten (s : State) : (rejectOversize s).bytesWritten = s.bytesWritten := rfl
@[simp] theorem rejectOversize_bytesRead (s : State) : (rejectOversize s).bytesRead = s.bytesRead := rfl
@[simp] theorem rejectOversize_payload (s : State) : (rejectOversize s).payload = s.payload := rfl
@[simp] theorem rejectOversize_crcEnabled (s : State) : (rejectOversize s).crcEnabled = s.crcEnabled := rfl
@[simp] theorem rejectOversize_cfg (s : State) : (rejectOversize s).cfg = s.cfg := rfl
@[simp] theorem rejectOversize_resetCount (s : State) : (rejectOversize s).resetCount = s.resetCount := rfl
@[simp] theorem rejectOversize_emitted (s : State) : (rejectOversize s).emitted = s.emitted := rfl
@[simp] theorem rejectOversize_events (s : State) : (rejectOversize s).events = s.events ++ [Event.rxError 6#8] := rfl
@[simp] theorem rejectOversize_results (s : State) : (rejectOversize s).results = s.results := rfl
@[simp] theorem rejectOversize_pending (s : State) : (rejectOversize s).pending = s.pending := rfl
@[simp] theorem rejectOversize_maxLen (s : State) : (rejectOversize s).maxLen = s.maxLen := rfl

/-! ### completeFrame -/

@[simp] theorem completeFrame_packetCmd (s : State) : (completeFrame s).packetCmd = s.packetCmd := rfl
@[simp] theorem completeFrame_headerLength (s : State) : (completeFrame s).headerLength = s.headerLength := rfl
@[simp] theorem completeFrame_payloadLength (s : State) : (completeFrame s).payloadLength = s.payloadLength := rfl
@[simp] theorem completeFrame_bytesReceived (s : State) : (completeFrame s).bytesReceived = 0#16 := rfl
@[simp] theorem completeFrame_unEscaping (s : State) : (completeFrame s).unEscaping = s.unEscaping := rfl
@[simp] theorem completeFrame_rxCrc (s : State) : (completeFrame s).rxCrc = 0xFFFF#16 := rfl
@[simp] theorem completeFrame_rxDrop (s : State) : (completeFrame s).rxDrop = s.rxDrop := rfl
@[simp] theorem completeFrame_txCrc (s : State) : (completeFrame s).txCrc = s.txCrc := rfl
@[simp] theorem completeFrame_bytesWritten (s : State) : (completeFrame s).bytesWritten = 0#16 := rfl
@[simp] theorem completeFrame_bytesRead (s : State) : (completeFrame s).bytesRead = 0#16 := rfl
@[simp] theorem completeFrame_payload (s : State) : (completeFrame s).payload = s.payload := rfl
@[simp] theorem completeFrame_crcEnabled (s : State) : (completeFrame s).crcEnabled = s.crcEnabled := rfl
@[simp] theorem completeFrame_cfg (s : State) : (completeFrame s).cfg = s.cfg := rfl
@[simp] theorem completeFrame_resetCount (s : State) : (completeFrame s).resetCount = s.resetCount := rfl
@[simp] theorem completeFrame_emitted (s : State) : (completeFrame s).emitted = s.emitted := rfl
@[simp] theorem completeFrame_events (s : State) : (completeFrame s).events = s.events ++ [completionEvent s] := rfl
@[simp] theorem completeFrame_results (s : State) : (completeFrame s).results = s.results := rfl
@[simp] theorem completeFrame_pending (s : State) : (completeFrame s).pending = s.pending := rfl
@[simp] theorem completeFrame_maxLen (s : State) : (completeFrame s).maxLen = s.maxLen := rfl

/-! ### startFrame -/

@[simp] theorem startFrame_packetCmd (cmd : Byte) (s : State) : (startFrame cmd s).packetCmd = cmd := rfl
@[simp] theorem startFrame_headerLength (cmd : Byte) (s : State) : (startFrame cmd s).headerLength = s.headerLength := rfl
@[simp] theorem startFrame_payloadLength (cmd : Byte) (s : State) : (startFrame cmd s).payloadLength = s.bytesWritten := rfl
@[simp] theorem startFrame_bytesReceived (cmd : Byte) (s : State) : (startFrame cmd s).bytesReceived = s.bytesReceived := rfl
@[simp] theorem startFrame_unEscaping (cmd : Byte) (s : State) : (startFrame cmd s).unEscaping = s.unEscaping := rfl
@[simp] theorem startFrame_rxCrc (cmd : Byte) (s : State) : (startFrame cmd s).rxCrc = s.rxCrc := rfl
@[simp] theorem startFrame_rxDrop (cmd : Byte) (s : State) : (startFrame cmd s).rxDrop = s.rxDrop := rfl
@[simp] theorem startFrame_txCrc (cmd : Byte) (s : State) : (startFrame cmd s).txCrc = 0xFFFF#16 := rfl
@[simp] theorem startFrame_bytesWritten (cmd : Byte) (s : State) : (startFrame cmd s).bytesWritten = s.bytesWritten := rfl
@[simp] theorem startFrame_bytesRead (cmd : Byte) (s : State) : (startFrame cmd s).bytesRead = s.bytesRead := rfl
@[simp] theorem startFrame_payload (cmd : Byte) (s : State) : (startFrame cmd s).payload = s.payload := rfl
@[simp] theorem startFrame_crcEnabled (cmd : Byte) (s : State) : (startFrame cmd s).crcEnabled = s.crcEnabled := rfl
@[simp] theorem startFrame_cfg (cmd : Byte) (s : State) : (startFrame cmd s).cfg = s.cfg := rfl
@[simp] theorem startFrame_resetCount (cmd : Byte) (s : State) : (startFrame cmd s).resetCount = s.resetCount := rfl
@[simp] theorem startFrame_emitted (cmd : Byte) (s : State) : (startFrame cmd s).emitted = s.emitted ++ [0x7E#8] := rfl
@[simp] theorem startFrame_events (cmd : Byte) (s : State) : (startFrame cmd s).events = s.events := rfl
@[simp] theorem startFrame_results (cmd : Byte) (s : State) : (startFrame cmd s).results = s.results := rfl
@[simp] theorem startFrame_pending (cmd : Byte) (s : State) : (startFrame cmd s).pending = s.pending := rfl
@[simp] theorem startFrame_maxLen (cmd : Byte) (s : State) : (startFrame cmd s).maxLen = s.maxLen := rfl

/-! ### endFrame -/

@[simp] theorem endFrame_packetCmd (s : State) : (endFrame s).packetCmd = s.packetCmd := rfl
@[simp] theorem endFrame_headerLength (s : State) : (endFrame s).headerLength = s.headerLength := rfl
@[simp] theorem endFrame_payloadLength (s : State) : (endFrame s).payloadLength = 0#16 := rfl
@[simp] theorem endFrame_bytesReceived (s : State) : (endFrame s).bytesReceived = s.bytesReceived := rfl
@[simp] theorem endFrame_unEscaping (s : State) : (endFrame s).unEscaping = s.unEscaping := rfl
@[simp] theorem endFrame_rxCrc (s : State) : (endFrame s).rxCrc = s.rxCrc := rfl
@[simp] theorem endFrame_rxDrop (s : State) : (endFrame s).rxDrop = s.rxDrop := rfl
@[simp] theorem endFrame_txCrc (s : State) : (endFrame s).txCrc = s.txCrc := rfl
@[simp] theorem endFrame_bytesWritten (s : State) : (endFrame s).bytesWritten = 0#16 := rfl
@[simp] theorem endFrame_bytesRead (s : State) : (endFrame s).bytesRead = s.bytesRead := rfl
@[simp] theorem endFrame_payload (s : State) : (endFrame s).payload = s.payload := rfl
@[simp] theorem endFrame_crcEnabled (s : State) : (endFrame s).crcEnabled = s.crcEnabled := rfl
@[simp] theorem endFrame_cfg (s : State) : (endFrame s).cfg = s.cfg := rfl
@[simp] theorem endFrame_resetCount (s : State) : (endFrame s).resetCount = s.resetCount := rfl
@[simp] theorem endFrame_emitted (s : State) : (endFrame s).emitted = s.emitted := rfl
@[simp] theorem endFrame_events (s : State) : (endFrame s).events = s.events := rfl
@[simp] theorem endFrame_results (s : State) : (endFrame s).results = s.results := rfl
@[simp] theorem endFrame_pending (s : State) : (endFrame s).pending = s.pending := rfl
@[simp] theorem endFrame_maxLen (s : State) : (endFrame s).maxLen = s.maxLen := rfl

/-! ### sendLogical -/

@[simp] theorem sendLogical_packetCmd (s : State) (b : Byte) : (sendLogical s b).packetCmd = s.packetCmd := rfl
@[simp] theorem sendLogical_headerLength (s : State) (b : Byte) : (sendLogical s b).headerLength = s.headerLength := rfl
@[simp] theorem sendLogical_payloadLength (s : State) (b : Byte) : (sendLogical s b).payloadLength = s.payloadLength := rfl
@[simp] theorem sendLogical_bytesReceived (s : State) (b : Byte) : (sendLogical s b).bytesReceived = s.bytesReceived := rfl
@[simp] theorem sendLogical_unEscaping (s : State) (b : Byte) : (sendLogical s b).unEscaping = s.unEscaping := rfl
@[simp] theorem sendLogical_rxCrc (s : State) (b : Byte) : (sendLogical s b).rxCrc = s.rxCrc := rfl
@[simp] theorem sendLogical_rxDrop (s : State) (b : Byte) : (sendLogical s b).rxDrop = s.rxDrop := rfl
@[simp] theorem sendLogical_txCrc (s : State) (b : Byte) : (sendLogical s b).txCrc = crc16Update s.txCrc b := rfl
@[simp] theorem sendLogical_bytesWritten (s : State) (b : Byte) : (sendLogical s b).bytesWritten = s.bytesWritten := rfl
@[simp] theorem sendLogical_bytesRead (s : State) (b : Byte) : (sendLogical s b).bytesRead = s.bytesRead := rfl
@[simp] theorem sendLogical_payload (s : State) (b : Byte) : (sendLogical s b).payload = s.payload := rfl
@[simp] theorem sendLogical_crcEnabled (s : State) (b : Byte) : (sendLogical s b).crcEnabled = s.crcEnabled := rfl
@[simp] theorem sendLogical_cfg (s : State) (b : Byte) : (sendLogical s b).cfg = s.cfg := rfl
@[simp] theorem sendLogical_resetCount (s : State) (b : Byte) : (sendLogical s b).resetCount = s.resetCount := rfl
@[simp] theorem sendLogical_emitted (s : State) (b : Byte) : (sendLogical s b).emitted = s.emitted ++ encodeByte b := rfl
@[simp] theorem sendLogical_events (s : State) (b : Byte) : (sendLogical s b).events = s.events := rfl
@[simp] theorem sendLogical_results (s : State) (b : Byte) : (sendLogical s b).results = s.results := rfl
@[simp] theorem sendLogical_pending (s : State) (b : Byte) : (sendLogical s b).pending = s.pending := rfl
@[simp] theorem sendLogical_maxLen (s : State) (b : Byte) : (sendLogical s b).maxLen = s.maxLen := rfl

/-! ### issueNext -/

@[simp] theorem issueNext_packetCmd (w : CodeWord) (s : State) : (issueNext w s).packetCmd = s.packetCmd := rfl
@[simp] theorem issueNext_headerLength (w : CodeWord) (s : State) : (issueNext w s).headerLength = s.headerLength := rfl
@[simp] theorem issueNext_payloadLength (w : CodeWord) (s : State) : (issueNext w s).payloadLength = s.payloadLength := rfl
@[simp] theorem issueNext_bytesReceived (w : CodeWord) (s : State) : (issueNext w s).bytesReceived = s.bytesReceived := rfl
@[simp] theorem issueNext_unEscaping (w : CodeWord) (s : State) : (issueNext w s).unEscaping = s.unEscaping := rfl
@[simp] theorem issueNext_rxCrc (w : CodeWord) (s : State) : (issueNext w s).rxCrc = s.rxCrc := rfl
@[simp] theorem issueNext_rxDrop (w : CodeWord) (s : State) : (issueNext w s).rxDrop = s.rxDrop := rfl
@[simp] theorem issueNext_txCrc (w : CodeWord) (s : State) : (issueNext w s).txCrc = s.txCrc := rfl
@[simp] theorem issueNext_bytesWritten (w : CodeWord) (s : State) : (issueNext w s).bytesWritten = s.bytesWritten := rfl
@[simp] theorem issueNext_bytesRead (w : CodeWord) (s : State) : (issueNext w s).bytesRead = s.bytesRead := rfl
@[simp] theorem issueNext_payload (w : CodeWord) (s : State) : (issueNext w s).payload = s.payload := rfl
@[simp] theorem issueNext_crcEnabled (w : CodeWord) (s : State) : (issueNext w s).crcEnabled = s.crcEnabled := rfl
@[simp] theorem issueNext_cfg (w : CodeWord) (s : State) : (issueNext w s).cfg = s.cfg := rfl
@[simp] theorem issueNext_resetCount (w : CodeWord) (s : State) : (issueNext w s).resetCount = s.resetCount := rfl
@[simp] theorem issueNext_emitted (w : CodeWord) (s : State) : (issueNext w s).emitted = s.emitted := rfl
@[simp] theorem issueNext_events (w : CodeWord) (s : State) : (issueNext w s).events = s.events := rfl
@[simp] theorem issueNext_results (w : CodeWord) (s : State) : (issueNext w s).results = s.results := rfl
@[simp] theorem issueNext_pending (w : CodeWord) (s : State) : (issueNext w s).pending = .word w :: s.pending := rfl
@[simp] theorem issueNext_maxLen (w : CodeWord) (s : State) : (issueNext w s).maxLen = s.maxLen := rfl

end Sys2Proof.Machine
end

