-- ==== Sys2Proof/Laws/Ops.lean ====
section
/-! SUPPORT. What the shared operations can do, said once: the count, the tests after it, a logical byte, a raw
byte, and sending. -/

namespace Sys2Proof.Machine

/-! ### Selection (log 8) -/

@[simp] theorem whenSelected_true (m : String) (o : Host.Outcome State Fault Refusal) :
    whenSelected true m o = o := rfl

@[simp] theorem whenSelected_false (m : String) (o : Host.Outcome State Fault Refusal) :
    whenSelected false m o = .refused (.rowNotSelected m) := rfl

/-- A selected row's next state is its action's. -/
theorem whenSelected_next {c : Bool} {m : String} {o : Host.Outcome State Fault Refusal} {t : State} :
    whenSelected c m o = .next t ↔ c = true ∧ o = .next t := by
  cases c <;> simp

@[simp] theorem andThen_next (s : State) (f : State → Host.Outcome State Fault Refusal) :
    andThen (.next s) f = f s := rfl

theorem andThen_eq_next {o : Host.Outcome State Fault Refusal} {f : State → Host.Outcome State Fault Refusal}
    {t : State} : andThen o f = .next t ↔ ∃ u, o = .next u ∧ f u = .next t := by
  cases o <;> simp [andThen]

/-! ### The count (R164) -/

theorem countByte_below {s : State} (h : s.bytesReceived.toNat < 0xFFFF) :
    countByte s = { s with bytesReceived := s.bytesReceived + 1#16 } := if_pos h

theorem countByte_cases (s : State) :
    (s.bytesReceived.toNat < 0xFFFF ∧ countByte s = { s with bytesReceived := s.bytesReceived + 1#16 }) ∨
    (s.bytesReceived = 0xFFFF#16 ∧ countByte s = s) := by
  unfold countByte
  split
  · exact .inl ⟨‹_›, rfl⟩
  · refine .inr ⟨?_, rfl⟩
    have := s.bytesReceived.isLt
    apply BitVec.eq_of_toNat_eq
    simp only [BitVec.toNat_ofNat]
    omega

/-- The count moves the counter and nothing else. -/
theorem countByte_eq (s : State) :
    countByte s = { s with bytesReceived := (countByte s).bytesReceived } := by
  rcases countByte_cases s with ⟨_, h⟩ | ⟨_, h⟩ <;> rw [h]

/-- The counter after the count, as a number. -/
theorem countByte_toNat (s : State) :
    (countByte s).bytesReceived.toNat = min (s.bytesReceived.toNat + 1) 0xFFFF := by
  have := s.bytesReceived.isLt
  rcases countByte_cases s with ⟨h, e⟩ | ⟨h, e⟩ <;> rw [e]
  · simp only [BitVec.toNat_add, BitVec.toNat_ofNat]; omega
  · simp [h]

@[simp] theorem countByte_packetCmd (s : State) : (countByte s).packetCmd = s.packetCmd := by rw [countByte_eq]
@[simp] theorem countByte_headerLength (s : State) : (countByte s).headerLength = s.headerLength := by rw [countByte_eq]
@[simp] theorem countByte_payloadLength (s : State) : (countByte s).payloadLength = s.payloadLength := by rw [countByte_eq]
@[simp] theorem countByte_unEscaping (s : State) : (countByte s).unEscaping = s.unEscaping := by rw [countByte_eq]
@[simp] theorem countByte_rxCrc (s : State) : (countByte s).rxCrc = s.rxCrc := by rw [countByte_eq]
@[simp] theorem countByte_rxDrop (s : State) : (countByte s).rxDrop = s.rxDrop := by rw [countByte_eq]
@[simp] theorem countByte_txCrc (s : State) : (countByte s).txCrc = s.txCrc := by rw [countByte_eq]
@[simp] theorem countByte_bytesWritten (s : State) : (countByte s).bytesWritten = s.bytesWritten := by rw [countByte_eq]
@[simp] theorem countByte_bytesRead (s : State) : (countByte s).bytesRead = s.bytesRead := by rw [countByte_eq]
@[simp] theorem countByte_payload (s : State) : (countByte s).payload = s.payload := by rw [countByte_eq]
@[simp] theorem countByte_crcEnabled (s : State) : (countByte s).crcEnabled = s.crcEnabled := by rw [countByte_eq]
@[simp] theorem countByte_cfg (s : State) : (countByte s).cfg = s.cfg := by rw [countByte_eq]
@[simp] theorem countByte_resetCount (s : State) : (countByte s).resetCount = s.resetCount := by rw [countByte_eq]
@[simp] theorem countByte_emitted (s : State) : (countByte s).emitted = s.emitted := by rw [countByte_eq]
@[simp] theorem countByte_events (s : State) : (countByte s).events = s.events := by rw [countByte_eq]
@[simp] theorem countByte_results (s : State) : (countByte s).results = s.results := by rw [countByte_eq]
@[simp] theorem countByte_pending (s : State) : (countByte s).pending = s.pending := by rw [countByte_eq]
@[simp] theorem countByte_maxLen (s : State) : (countByte s).maxLen = s.maxLen := by
  simp [State.maxLen]
@[simp] theorem countByte_total (s : State) : (countByte s).total = s.total := by
  simp [State.total]

/-! ### The tests after the count (R165, R166) -/

theorem countTest_eq_oversize {s : State} :
    s.countTest = .oversize ↔
      s.bytesReceived.toNat = s.headerLength.toNat ∧ s.maxLen < s.payloadLength.toNat := by
  unfold State.countTest; split_ifs <;> simp_all

theorem countTest_eq_complete {s : State} :
    s.countTest = .complete ↔
      ¬(s.bytesReceived.toNat = s.headerLength.toNat ∧ s.maxLen < s.payloadLength.toNat) ∧
      s.bytesReceived.toNat = s.total := by
  unfold State.countTest; split_ifs <;> simp_all

/-- The two tests never both succeed, so step 8 before step 9 is no restriction (R151). -/
theorem countTest_eq_complete_iff {s : State} :
    s.countTest = .complete ↔ s.bytesReceived.toNat = s.total ∧ s.payloadLength.toNat ≤ s.maxLen ∨
      s.bytesReceived.toNat = s.total ∧ s.headerLength.toNat < s.bytesReceived.toNat := by
  rw [countTest_eq_complete]
  simp only [State.total]
  omega

theorem countTest_eq_neither {s : State} :
    s.countTest = .neither ↔
      ¬(s.bytesReceived.toNat = s.headerLength.toNat ∧ s.maxLen < s.payloadLength.toNat) ∧
      s.bytesReceived.toNat ≠ s.total := by
  unfold State.countTest; split_ifs <;> simp_all

/-- Everything that steps 7 to 9 can do. -/
theorem endByte_cases (s : State) :
    ((countByte s).countTest = .neither ∧ endByte s = countByte s) ∨
    ((countByte s).countTest = .oversize ∧ endByte s = rejectOversize (countByte s)) ∨
    ((countByte s).countTest = .complete ∧ endByte s = completeFrame (countByte s)) := by
  unfold endByte afterCount
  cases h : (countByte s).countTest <;> simp

theorem endByte_neither {s : State} (h : (countByte s).countTest = .neither) : endByte s = countByte s := by
  simp [endByte, afterCount, h]

theorem endByte_oversize {s : State} (h : (countByte s).countTest = .oversize) :
    endByte s = rejectOversize (countByte s) := by
  simp [endByte, afterCount, h]

theorem endByte_complete {s : State} (h : (countByte s).countTest = .complete) :
    endByte s = completeFrame (countByte s) := by
  simp [endByte, afterCount, h]

/-! ### A logical byte (R150, steps 4 to 9) -/

/-- Everything that can become of a logical byte, with what its phase is. -/
theorem acceptLogical_cases (v : Byte) (s : State) :
    (s.phase = .drop ∧ acceptLogical v s = .next s) ∨
    (s.phase = .idle ∧ acceptLogical v s = .next (endByte (takeCommand v (foldRxCrc v s)))) ∨
    (s.phase = .len1 ∧ acceptLogical v s = .next (endByte (takeFirstLength v (foldRxCrc v s)))) ∨
    (s.phase = .len2 ∧ acceptLogical v s = .next (endByte (takeSecondLength v (foldRxCrc v s)))) ∨
    (s.phase = .payload ∧ acceptLogical v s = storeLogical v s) ∨
    ((s.phase = .crc ∨ s.phase = .overrun) ∧ acceptLogical v s = .next (endByte (foldRxCrc v s))) := by
  unfold acceptLogical State.phase
  have h2 := s.headerLength.isLt
  have hb := s.bytesReceived.isLt
  by_cases hd : s.rxDrop = true
  · simp [hd]
  by_cases h0 : s.bytesReceived = 0#16
  · simp [hd, h0]
  by_cases h1 : s.bytesReceived = 1#16
  · simp [hd, h1]
  by_cases hl : s.bytesReceived = 2#16 ∧ s.headerLength = 3#2
  · simp [hd, hl]
  have hle : s.headerLength.toNat ≤ s.bytesReceived.toNat := by
    have h0' : s.bytesReceived.toNat ≠ 0 := fun h => h0 (BitVec.eq_of_toNat_eq (by simpa using h))
    have h1' : s.bytesReceived.toNat ≠ 1 := fun h => h1 (BitVec.eq_of_toNat_eq (by simpa using h))
    have hl' : ¬(s.bytesReceived.toNat = 2 ∧ s.headerLength.toNat = 3) := fun h =>
      hl ⟨BitVec.eq_of_toNat_eq (by simpa using h.1), BitVec.eq_of_toNat_eq (by simpa using h.2)⟩
    omega
  by_cases hp : s.payloadIndex < s.payloadLength.toNat
  · simp [hd, h0, h1, hl, hle, hp]
  · simp only [hd, h0, h1, hl, hle, hp, if_false, and_false, Bool.false_eq_true]
    refine .inr (.inr (.inr (.inr (.inr ⟨?_, trivial⟩))))
    split
    · exact .inl rfl
    · exact .inr rfl

end Sys2Proof.Machine
end

