-- ==== Sys2Proof/Laws/Operands.lean ====
section
/-! SUPPORT. The operand forms: the length bytes as numbers, the command bytes, and what each phase says of the
registers. -/

namespace Sys2Proof.Machine

/-! ### Bytes with bit 7 set or clear (R83, R84, R85) -/

theorem bit7_byteWithBit7Set (n : BitVec 7) : bit7 (byteWithBit7Set n) = true := by
  revert n; decide +kernel

theorem bit7_byteWithBit7Clear (n : BitVec 7) : bit7 (byteWithBit7Clear n) = false := by
  revert n; decide +kernel

theorem byteWithBit7Set_low (n : BitVec 7) : (byteWithBit7Set n).setWidth 7 = n := by
  revert n; decide +kernel

theorem byteWithBit7Clear_low (n : BitVec 7) : (byteWithBit7Clear n).setWidth 7 = n := by
  revert n; decide +kernel

theorem byteWithBit7Clear_toNat (n : BitVec 7) : (byteWithBit7Clear n).toNat = n.toNat := by
  revert n; decide +kernel

theorem byteWithBit7Set_of_bit7 (b : Byte) (h : bit7 b = true) : byteWithBit7Set (b.setWidth 7) = b := by
  revert b; decide +kernel

theorem byteWithBit7Clear_of_bit7 (b : Byte) (h : bit7 b = false) : byteWithBit7Clear (b.setWidth 7) = b := by
  revert b; decide +kernel

theorem bit7_eq_decide (b : Byte) : bit7 b = decide (128 ≤ b.toNat) := by
  revert b; decide +kernel

/-! ### Halves of a 16-bit value -/

theorem lo8_toNat (v : Word16) : (lo8 v).toNat = v.toNat % 256 := by
  simp [lo8]

theorem hi8_toNat (v : Word16) : (hi8 v).toNat = v.toNat / 256 := by
  have := v.isLt
  simp [hi8, Nat.shiftRight_eq_div_pow]
  omega

theorem join16_toNat (h l : Byte) : (join16 h l).toNat = 256 * h.toNat + l.toNat := by
  have hh := h.isLt
  have hl := l.isLt
  have e : join16 h l = h.setWidth 16 <<< 8 + l.setWidth 16 := by
    refine (BitVec.add_eq_or_of_and_eq_zero _ _ ?_).symm
    ext i hi
    have := BitVec.getLsbD_of_ge l i
    simp
    intro a _
    exact this a
  rw [e]
  simp only [BitVec.toNat_add, BitVec.toNat_shiftLeft, BitVec.toNat_setWidth, Nat.shiftLeft_eq]
  omega

@[simp] theorem join16_hi8_lo8 (v : Word16) : join16 (hi8 v) (lo8 v) = v := by
  apply BitVec.eq_of_toNat_eq
  rw [join16_toNat, hi8_toNat, lo8_toNat]
  omega

@[simp] theorem lo8_join16 (h l : Byte) : lo8 (join16 h l) = l := by
  have := l.isLt
  apply BitVec.eq_of_toNat_eq
  rw [lo8_toNat, join16_toNat]
  omega

@[simp] theorem hi8_join16 (h l : Byte) : hi8 (join16 h l) = h := by
  have := l.isLt
  apply BitVec.eq_of_toNat_eq
  rw [hi8_toNat, join16_toNat]
  omega

/-! ### The length field (R159, R160) -/

theorem headerLengthOf_long {v : Byte} (h : v.getLsbD 7 = true) : headerLengthOf v = 3#2 := if_pos h

theorem headerLengthOf_short {v : Byte} (h : v.getLsbD 7 = false) : headerLengthOf v = 2#2 := by
  simp only [headerLengthOf, bit7, h, Bool.false_eq_true, if_false]

theorem headerLengthOf_or (v : Byte) : headerLengthOf v = 2#2 ∨ headerLengthOf v = 3#2 := by
  unfold headerLengthOf; split <;> simp

theorem firstLengthOf_long {v : Byte} (h : v.getLsbD 7 = true) :
    firstLengthOf v = (v &&& 0x7F#8).setWidth 16 <<< 8 := if_pos h

theorem firstLengthOf_short {v : Byte} (h : v.getLsbD 7 = false) : firstLengthOf v = v.setWidth 16 := by
  simp only [firstLengthOf, bit7, h, Bool.false_eq_true, if_false]

/-- The high part leaves room for the low one. -/
theorem firstLengthOf_le (v : Byte) : (firstLengthOf v).toNat ≤ 0x7F00 := by
  revert v; decide +kernel

theorem firstLengthOf_byteWithBit7Set (n : BitVec 7) : (firstLengthOf (byteWithBit7Set n)).toNat = 256 * n.toNat := by
  revert n; decide +kernel

theorem addLength_toNat {l : Word16} (v : Byte) (h : l.toNat ≤ 0x7F00) :
    (l + v.setWidth 16).toNat = l.toNat + v.toNat := by
  have := v.isLt
  simp only [BitVec.toNat_add, BitVec.toNat_setWidth]
  omega

/-! ### What a phase says of the registers (R152) -/

theorem headerLength_toNat {h : BitVec 2} (e : h = 2#2 ∨ h = 3#2) : h.toNat = 2 ∨ h.toNat = 3 := by
  rcases e with rfl | rfl <;> simp

theorem phase_eq_drop {s : State} : s.phase = .drop ↔ s.rxDrop = true := by
  unfold State.phase; split_ifs <;> simp_all

theorem phase_eq_idle {s : State} : s.phase = .idle ↔ s.rxDrop = false ∧ s.bytesReceived = 0#16 := by
  unfold State.phase; split_ifs <;> simp_all

theorem phase_eq_len1 {s : State} : s.phase = .len1 ↔ s.rxDrop = false ∧ s.bytesReceived = 1#16 := by
  unfold State.phase; split_ifs <;> simp_all

theorem phase_eq_len2 {s : State} :
    s.phase = .len2 ↔ s.rxDrop = false ∧ s.bytesReceived = 2#16 ∧ s.headerLength = 3#2 := by
  unfold State.phase; split_ifs <;> simp_all

/-- Past the first length byte, and not before the second one of the long form: the header is whole. -/
theorem pastHeader_iff {s : State} (h2 : s.headerLength = 2#2 ∨ s.headerLength = 3#2) :
    s.headerLength.toNat ≤ s.bytesReceived.toNat ↔
      2 ≤ s.bytesReceived.toNat ∧ ¬(s.bytesReceived = 2#16 ∧ s.headerLength = 3#2) := by
  have e : s.bytesReceived = 2#16 ↔ s.bytesReceived.toNat = 2 :=
    ⟨fun h => by simp [h], fun h => BitVec.eq_of_toNat_eq (by simpa using h)⟩
  rcases h2 with h | h
  · simp [h]
  · simp [h, e]
    omega

theorem phase_payload {s : State} (h : s.phase = .payload) :
    s.rxDrop = false ∧ 2 ≤ s.bytesReceived.toNat ∧ s.headerLength.toNat ≤ s.bytesReceived.toNat ∧
      s.payloadIndex < s.payloadLength.toNat := by
  unfold State.phase at h
  split_ifs at h with a b c d e
  have h0 : s.bytesReceived.toNat ≠ 0 := fun h => b (BitVec.eq_of_toNat_eq (by simpa using h))
  have h1 : s.bytesReceived.toNat ≠ 1 := fun h => c (BitVec.eq_of_toNat_eq (by simpa using h))
  exact ⟨by simpa using a, by omega, e.1, e.2⟩

theorem phase_crc {s : State} (h : s.phase = .crc) :
    s.rxDrop = false ∧ s.crcEnabled = true ∧
      s.payloadLength.toNat + s.headerLength.toNat ≤ s.bytesReceived.toNat ∧
      s.bytesReceived.toNat < s.payloadLength.toNat + s.headerLength.toNat + 2 := by
  unfold State.phase at h
  split_ifs at h with a b c d e f
  exact ⟨by simpa using a, f⟩

theorem phase_overrun {s : State} (h : s.phase = .overrun) :
    s.rxDrop = false ∧ s.total ≤ s.bytesReceived.toNat ∧ 2 ≤ s.bytesReceived.toNat ∧
      (s.bytesReceived.toNat = 2 → s.headerLength.toNat ≠ 3) := by
  unfold State.phase at h
  split_ifs at h with a b c d e f
  have h0 : s.bytesReceived.toNat ≠ 0 := fun h => b (BitVec.eq_of_toNat_eq (by simpa using h))
  have h1 : s.bytesReceived.toNat ≠ 1 := fun h => c (BitVec.eq_of_toNat_eq (by simpa using h))
  have h2 : s.bytesReceived.toNat = 2 → s.headerLength.toNat ≠ 3 := fun h h' =>
    d ⟨BitVec.eq_of_toNat_eq (by simpa using h), BitVec.eq_of_toNat_eq (by simpa using h')⟩
  refine ⟨by simpa using a, ?_, by omega, h2⟩
  have hhl := s.headerLength.isLt
  simp only [State.payloadIndex] at e
  simp only [State.total, crcLength]
  split
  · simp [*] at f; omega
  · omega

end Sys2Proof.Machine
end

