-- ==== Sys2Proof/Laws/Kept.lean ====
section
/-! SUPPORT. What the shared operations leave as it was, and everything the byte operations can do: the escape decoder,
a raw byte, an append, a cursor read. -/

namespace Sys2Proof.Machine

open Sys2Proof.Safety

/-- The registers that no part of the decoder writes. -/
structure DecoderKeeps (s t : State) : Prop where
  resetCount : t.resetCount = s.resetCount
  cfg : t.cfg = s.cfg
  pending : t.pending = s.pending
  crcEnabled : t.crcEnabled = s.crcEnabled
  txCrc : t.txCrc = s.txCrc
  emitted : t.emitted = s.emitted
  results : t.results = s.results

/-- The two cursors are as they were, or the decoder reached COMPLETE. -/
def CursorsKeptOrComplete (s t : State) : Prop :=
  t.bytesRead = s.bytesRead ∧ t.bytesWritten = s.bytesWritten ∨ CompletedFrame s t

theorem DecoderKeeps.refl (s : State) : DecoderKeeps s s :=
  ⟨rfl, rfl, rfl, rfl, rfl, rfl, rfl⟩

theorem DecoderKeeps.trans {s t u : State} (h : DecoderKeeps s t) (k : DecoderKeeps t u) : DecoderKeeps s u where
  resetCount := k.resetCount.trans h.resetCount
  cfg := k.cfg.trans h.cfg
  pending := k.pending.trans h.pending
  crcEnabled := k.crcEnabled.trans h.crcEnabled
  txCrc := k.txCrc.trans h.txCrc
  emitted := k.emitted.trans h.emitted
  results := k.results.trans h.results

/-- Only the events of the first state matter, so an update of anything else before COMPLETE is no matter. -/
theorem completedFrame_congr {s s' t : State} (h : CompletedFrame s t) (e : s.events = s'.events) :
    CompletedFrame s' t :=
  ⟨h.bytesReceived, h.bytesRead, h.bytesWritten, h.rxCrc, e ▸ h.event⟩

/-- Step 9's actions are a COMPLETE (R167). -/
theorem completeFrame_completes (s : State) : CompletedFrame s (completeFrame s) := by
  refine ⟨rfl, rfl, rfl, rfl, ?_⟩
  cases h : frameAccepted s.crcEnabled s.rxCrc <;> simp [completeFrame, completionEvent, raise, h]

/-- Steps 7 to 9 write no register outside the decoder, not the buffer, and no field of the frame's header. -/
theorem endByte_keeps (s : State) : DecoderKeeps s (endByte s) ∧ CursorsKeptOrComplete s (endByte s) ∧
    (endByte s).payload = s.payload ∧ (endByte s).unEscaping = s.unEscaping ∧ (endByte s).packetCmd = s.packetCmd ∧
    (endByte s).headerLength = s.headerLength ∧ (endByte s).payloadLength = s.payloadLength := by
  rcases endByte_cases s with ⟨_, e⟩ | ⟨_, e⟩ | ⟨_, e⟩ <;> rw [e] <;>
    refine ⟨⟨by simp, by simp, by simp, by simp, by simp, by simp, by simp⟩, ?_, by simp, by simp, by simp, by simp,
      by simp⟩
  · exact .inl (by simp)
  · exact .inl (by simp)
  · exact .inr (completedFrame_congr (completeFrame_completes _) (by simp))

/-- A logical byte writes no register outside the decoder, the cursors only at COMPLETE, each field of the header only in its
own phase, and of the buffer only the index of phase PAYLOAD. -/
structure LogicalByteKeeps (v : Byte) (s t : State) : Prop where
  outside : DecoderKeeps s t
  cursors : CursorsKeptOrComplete s t
  unEscaping : t.unEscaping = s.unEscaping
  packetCmd : s.phase ≠ .idle → t.packetCmd = s.packetCmd
  headerLength : s.phase ≠ .len1 → t.headerLength = s.headerLength
  payloadLength : s.phase ≠ .len1 → s.phase ≠ .len2 → t.payloadLength = s.payloadLength
  payload : t.payload = s.payload ∨ s.phase = .payload ∧ t.payload = Memory.write s.payload s.payloadIndex v

/-- Steps 7 to 9 after an update `u` of the byte's phase, from what `u` keeps. -/
theorem LogicalByteKeeps.endByte {v : Byte} {s u : State} (h : DecoderKeeps s u) (hf : u.unEscaping = s.unEscaping)
    (he : u.events = s.events) (hr : u.bytesRead = s.bytesRead) (hw : u.bytesWritten = s.bytesWritten)
    (h1 : s.phase ≠ .idle → u.packetCmd = s.packetCmd) (h2 : s.phase ≠ .len1 → u.headerLength = s.headerLength)
    (h3 : s.phase ≠ .len1 → s.phase ≠ .len2 → u.payloadLength = s.payloadLength)
    (h4 : u.payload = s.payload ∨ s.phase = .payload ∧ u.payload = Memory.write s.payload s.payloadIndex v) :
    LogicalByteKeeps v s (endByte u) := by
  obtain ⟨k, kc, kp, kf, k1, k2, k3⟩ := endByte_keeps u
  refine ⟨h.trans k, ?_, kf.trans hf, fun n => k1.trans (h1 n), fun n => k2.trans (h2 n),
    fun n m => k3.trans (h3 n m), by rw [kp]; exact h4⟩
  rcases kc with ⟨a, b⟩ | kc
  · exact .inl ⟨a.trans hr, b.trans hw⟩
  · exact .inr (completedFrame_congr kc he)

/-- The inversion of a logical byte: whatever its phase, it keeps what LogicalByteKeeps lists. -/
theorem acceptLogical_keeps {v : Byte} {s t : State} (e : acceptLogical v s = .next t) : LogicalByteKeeps v s t := by
  have keeps : ∀ u : State, u.resetCount = s.resetCount → u.cfg = s.cfg → u.pending = s.pending →
      u.crcEnabled = s.crcEnabled → u.txCrc = s.txCrc → u.emitted = s.emitted → u.results = s.results →
      DecoderKeeps s u := fun u a b c d e f g => ⟨a, b, c, d, e, f, g⟩
  rcases acceptLogical_cases v s with ⟨_, h⟩ | ⟨hp, h⟩ | ⟨hp, h⟩ | ⟨hp, h⟩ | ⟨hp, h⟩ | ⟨_, h⟩ <;> rw [h] at e
  · cases e
    exact ⟨.refl s, .inl ⟨rfl, rfl⟩, rfl, fun _ => rfl, fun _ => rfl, fun _ _ => rfl, .inl rfl⟩
  · cases e
    exact .endByte (keeps _ rfl rfl rfl rfl rfl rfl rfl) rfl rfl rfl rfl (fun n => absurd hp n) (fun _ => rfl)
      (fun _ _ => rfl) (.inl rfl)
  · cases e
    exact .endByte (keeps _ rfl rfl rfl rfl rfl rfl rfl) rfl rfl rfl rfl (fun _ => rfl) (fun n => absurd hp n)
      (fun n _ => absurd hp n) (.inl rfl)
  · cases e
    exact .endByte (keeps _ rfl rfl rfl rfl rfl rfl rfl) rfl rfl rfl rfl (fun _ => rfl) (fun _ => rfl)
      (fun _ n => absurd hp n) (.inl rfl)
  · unfold storeLogical at e
    split at e
    · cases e
      exact .endByte (keeps _ rfl rfl rfl rfl rfl rfl rfl) rfl rfl rfl rfl (fun _ => rfl) (fun _ => rfl)
        (fun _ _ => rfl) (.inr ⟨hp, rfl⟩)
    · cases e
  · cases e
    exact .endByte (keeps _ rfl rfl rfl rfl rfl rfl rfl) rfl rfl rfl rfl (fun _ => rfl) (fun _ => rfl)
      (fun _ _ => rfl) (.inl rfl)

/-- The three cases of `decode_byte` (R111). -/
theorem decodeByte_cases (f : Bool) (b : Byte) :
    (b = 0x7D#8 ∧ decodeByte f b = (true, none)) ∨
    (b ≠ 0x7D#8 ∧ f = true ∧ decodeByte f b = (false, some (b ^^^ 0x20#8))) ∨
    (b ≠ 0x7D#8 ∧ f = false ∧ decodeByte f b = (false, some b)) := by
  unfold decodeByte
  by_cases h : b = 0x7D#8 <;> cases f <;> simp [h]

/-- Everything a raw byte can do (R150, R94): boundary, escape, or a logical byte with the flag clear. -/
theorem receiveRaw_cases (b : Byte) (s : State) :
    (b = 0x7E#8 ∧ s.unEscaping = false ∧ receiveRaw b s = .next (boundaryReset s)) ∨
    (b = 0x7D#8 ∧ receiveRaw b s = .next { s with unEscaping := true }) ∨
    (b ≠ 0x7D#8 ∧ s.unEscaping = true ∧
      receiveRaw b s = acceptLogical (b ^^^ 0x20#8) { s with unEscaping := false }) ∨
    (b ≠ 0x7E#8 ∧ b ≠ 0x7D#8 ∧ s.unEscaping = false ∧
      receiveRaw b s = acceptLogical b { s with unEscaping := false }) := by
  unfold receiveRaw acceptRaw
  rcases decodeByte_cases s.unEscaping b with ⟨h, e⟩ | ⟨h, hf, e⟩ | ⟨h, hf, e⟩ <;> rw [e]
  · right; left; simp [h]
  · right; right; left; simp [h, hf]
  · by_cases hb : b = 0x7E#8
    · left; simp [hb, hf]
    · right; right; right; simp [h, hf, hb]

/-- Everything an append can do (R202). -/
theorem appendByte_cases (b : Byte) (s : State) :
    (s.maxLen ≤ s.bytesWritten.toNat ∧ appendByte b s = raise (.bufError 6#8) s) ∨
    (s.bytesWritten.toNat < s.maxLen ∧
      appendByte b s =
        { storePayload s.bytesWritten.toNat b s with bytesWritten := s.bytesWritten + 1#16 }) := by
  unfold appendByte
  split
  · exact .inl ⟨‹_›, rfl⟩
  · exact .inr ⟨by omega, rfl⟩

/-- A cursor read moves only the cursor and answers, or is refused (R207, 93 U14). -/
theorem readCursor_cases (n : Nat) (s : State) :
    (s.bytesRead.toNat + n ≤ s.readBound ∧
      readCursor n s = .next (answer (.bytes (s.payloadSlice s.bytesRead.toNat n))
        { s with bytesRead := s.bytesRead + BitVec.ofNat 16 n })) ∨
    (s.readBound < s.bytesRead.toNat + n ∧ readCursor n s = .refused .readPastPacket) := by
  unfold readCursor
  split
  · exact .inl ⟨‹_›, rfl⟩
  · exact .inr ⟨by omega, rfl⟩

/-- Where the scan for the terminator ends: at the first zero byte within its reach. -/
theorem stringLength_eq_some {s : State} {i n fuel : Nat} (hn : n < fuel) (hz : s.payloadByte (i + n) = 0#8)
    (hb : ∀ k, k < n → s.payloadByte (i + k) ≠ 0#8) : stringLength s i fuel = some n := by
  induction fuel generalizing i n with
  | zero => omega
  | succ fuel ih =>
    unfold stringLength
    cases n with
    | zero => rw [if_pos (by simpa using hz)]
    | succ n =>
      rw [if_neg (by simpa using hb 0 (by omega)),
        ih (n := n) (by omega) (by rw [← hz]; congr 1; omega)
          (fun k hk => by have := hb (k + 1) (by omega); rwa [show i + (k + 1) = i + 1 + k by omega] at this)]
      rfl

/-- With no zero byte within its reach the scan finds no terminator. -/
theorem stringLength_eq_none {s : State} {i fuel : Nat} (h : ∀ k, k < fuel → s.payloadByte (i + k) ≠ 0#8) :
    stringLength s i fuel = none := by
  induction fuel generalizing i with
  | zero => rfl
  | succ fuel ih =>
    unfold stringLength
    rw [if_neg (by simpa using h 0 (by omega)),
      ih (fun k hk => by have := h (k + 1) (by omega); rwa [show i + (k + 1) = i + 1 + k by omega] at this)]
    rfl

end Sys2Proof.Machine
end

