-- ==== Sys2Proof/Laws/Frames.lean ====
section
/-! SUPPORT. Sequences: the codec, the CRC fold, sending, and receiving one byte after another. -/

namespace Sys2Proof.Machine

@[simp] theorem encodeBytes_nil : encodeBytes [] = [] := rfl

@[simp] theorem encodeBytes_cons (b : Byte) (bs : List Byte) :
    encodeBytes (b :: bs) = encodeByte b ++ encodeBytes bs := by simp [encodeBytes]

@[simp] theorem encodeBytes_append (a b : List Byte) : encodeBytes (a ++ b) = encodeBytes a ++ encodeBytes b := by
  simp [encodeBytes]

/-- The two forms of `encode_byte` (R110). -/
theorem encodeByte_cases (b : Byte) :
    ((b = 0x7E#8 ∨ b = 0x7D#8) ∧ encodeByte b = [0x7D#8, b ^^^ 0x20#8]) ∨
    (b ≠ 0x7E#8 ∧ b ≠ 0x7D#8 ∧ encodeByte b = [b]) := by
  unfold encodeByte
  split
  · exact .inl ⟨‹_›, rfl⟩
  · rename_i h; exact .inr ⟨fun e => h (.inl e), fun e => h (.inr e), rfl⟩

@[simp] theorem decodeBytes_nil (f : Bool) : decodeBytes f [] = (f, []) := rfl

theorem decodeBytes_cons (f : Bool) (b : Byte) (bs : List Byte) :
    decodeBytes f (b :: bs) =
      ((decodeBytes (decodeByte f b).1 bs).1, (decodeByte f b).2.toList ++ (decodeBytes (decodeByte f b).1 bs).2) := rfl

theorem decodeBytes_append (f : Bool) (a b : List Byte) :
    decodeBytes f (a ++ b) =
      ((decodeBytes (decodeBytes f a).1 b).1, (decodeBytes f a).2 ++ (decodeBytes (decodeBytes f a).1 b).2) := by
  induction a generalizing f with
  | nil => rfl
  | cons x a ih => simp only [List.cons_append, decodeBytes_cons, ih, List.append_assoc]

@[simp] theorem crcFold_nil (c : Word16) : crcFold c [] = c := rfl

@[simp] theorem crcFold_cons (c : Word16) (b : Byte) (bs : List Byte) :
    crcFold c (b :: bs) = crcFold (crc16Update c b) bs := rfl

@[simp] theorem crcFold_append (c : Word16) (a b : List Byte) : crcFold c (a ++ b) = crcFold (crcFold c a) b := by
  simp [crcFold]

/-- One shift is linear over XOR. -/
theorem crcShift_xor (x y : Word16) : crcShift (x ^^^ y) = crcShift x ^^^ crcShift y := by
  unfold crcShift
  rw [BitVec.getLsbD_xor]
  cases x.getLsbD 0 <;> cases y.getLsbD 0
  · simp [BitVec.ushiftRight_xor_distrib]
  · simp [BitVec.ushiftRight_xor_distrib, BitVec.xor_assoc]
  · have h : ∀ a b p : Word16, a ^^^ b ^^^ p = a ^^^ p ^^^ b := by
      intro a b p
      rw [BitVec.xor_assoc, BitVec.xor_comm b p, BitVec.xor_assoc]
    simpa [BitVec.ushiftRight_xor_distrib] using h _ _ _
  · have h : ∀ a b p : Word16, a ^^^ b = a ^^^ p ^^^ (b ^^^ p) := by
      intro a b p
      rw [BitVec.xor_comm b p, BitVec.xor_assoc, ← BitVec.xor_assoc p, BitVec.xor_self, BitVec.zero_xor]
    simpa [BitVec.ushiftRight_xor_distrib] using h _ _ _

theorem crcShifts_xor (k : Nat) (x y : Word16) : crcShifts k (x ^^^ y) = crcShifts k x ^^^ crcShifts k y := by
  induction k generalizing x y with
  | zero => rfl
  | succ k ih => simp only [crcShifts, crcShift_xor, ih]

/-- Everything sending a run of logical bytes does: the CRC folded, the escaped bytes emitted (R139). -/
theorem sendAll_eq (bs : List Byte) (s : State) :
    sendAll bs s =
      { s with txCrc := crcFold s.txCrc bs, emitted := s.emitted ++ encodeBytes bs } := by
  induction bs generalizing s with
  | nil => simp [sendAll]
  | cons b bs ih =>
    show sendAll bs (sendLogical s b) = _
    rw [ih]
    simp [sendLogical, emitRaw]

@[simp] theorem execAll_nil (s : State) : execAll [] s = .next s := rfl

@[simp] theorem execAll_cons (i : Instr) (is : List Instr) (s : State) :
    execAll (i :: is) s = andThen (exec i s) (execAll is) := rfl

theorem execAll_append (a b : List Instr) (s : State) :
    execAll (a ++ b) s = andThen (execAll a s) (execAll b) := by
  induction a generalizing s with
  | nil => rfl
  | cons i a ih =>
    simp only [List.cons_append, execAll_cons]
    cases exec i s with
    | next t => exact ih t
    | fault r => rfl
    | refused r => rfl

@[simp] theorem receiveAll_nil (s : State) : receiveAll [] s = .next s := rfl

@[simp] theorem receiveAll_cons (b : Byte) (bs : List Byte) (s : State) :
    receiveAll (b :: bs) s = andThen (receiveRaw b s) (receiveAll bs) := rfl

theorem receiveAll_append (a b : List Byte) (s : State) :
    receiveAll (a ++ b) s = andThen (receiveAll a s) (receiveAll b) := by
  simp only [receiveAll, List.map_append, execAll_append]

end Sys2Proof.Machine
end

