-- ==== Sys2Proof/Laws/Invariant.lean ====
section
/-! SUPPORT. The shared operations keep the invariant of 10_state.md R37, and go on. -/

namespace Sys2Proof.Safety

open Sys2Proof.Machine

/-- Only these fields matter to the invariant, so an update of any other keeps it. -/
theorem SoundState.congr {s t : State} (h : SoundState s) (e1 : t.headerLength = s.headerLength)
    (e2 : t.payloadLength = s.payloadLength) (e3 : t.bytesWritten = s.bytesWritten) (e4 : t.rxDrop = s.rxDrop)
    (e5 : t.bytesReceived = s.bytesReceived) (e6 : t.rxCrc = s.rxCrc) (e7 : t.payload = s.payload)
    (e8 : t.cfg = s.cfg) : SoundState t := by
  have em : t.maxLen = s.maxLen := by simp [State.maxLen, e8]
  exact ⟨e1 ▸ h.headerLength, e2 ▸ h.payloadLength, em ▸ e3 ▸ h.bytesWritten, e4 ▸ e5 ▸ h.dropIsIdle,
    e5 ▸ e6 ▸ h.idleCrc, by rw [e1, e2, e5, em]; exact h.lengthBounded,
    by rw [e1, e2, e5]; exact h.highPartOnly, e7 ▸ h.bufferOrdered, by rw [e7, em]; exact h.bufferInRange⟩

/-- A decoder back at the start of a frame needs nothing of the length. -/
theorem SoundState.atStart {s : State} (h1 : s.headerLength = 2#2 ∨ s.headerLength = 3#2)
    (h2 : s.payloadLength.toNat ≤ 32767) (h3 : s.bytesWritten.toNat ≤ s.maxLen) (h4 : s.bytesReceived = 0#16)
    (h5 : s.rxCrc = 0xFFFF#16) (h6 : Memory.wf s.payload) (h7 : ∀ c ∈ s.payload, c.1 < s.maxLen) : SoundState s := by
  have := headerLength_toNat h1
  exact ⟨h1, h2, h3, fun _ => h4, fun _ => h5, fun h => by simp [h4] at h; omega, fun h => by simp [h4] at h, h6, h7⟩

theorem boundaryReset_inv {s : State} (h : SoundState s) : SoundState (boundaryReset s) :=
  .atStart h.headerLength h.payloadLength h.bytesWritten rfl rfl h.bufferOrdered h.bufferInRange

theorem rejectOversize_inv {s : State} (h1 : s.headerLength = 2#2 ∨ s.headerLength = 3#2)
    (h2 : s.payloadLength.toNat ≤ 32767) (h3 : s.bytesWritten.toNat ≤ s.maxLen) (h6 : Memory.wf s.payload)
    (h7 : ∀ c ∈ s.payload, c.1 < s.maxLen) : SoundState (rejectOversize s) :=
  .atStart h1 h2 h3 rfl rfl h6 h7

theorem completeFrame_inv {s : State} (h1 : s.headerLength = 2#2 ∨ s.headerLength = 3#2)
    (h2 : s.payloadLength.toNat ≤ 32767) (h6 : Memory.wf s.payload) (h7 : ∀ c ∈ s.payload, c.1 < s.maxLen) :
    SoundState (completeFrame s) :=
  .atStart h1 h2 (by simp) rfl rfl h6 h7

/-- Steps 7 to 9 restore the invariant: what step 8 does not reject is bounded. -/
theorem endByte_inv {s : State} (h1 : s.headerLength = 2#2 ∨ s.headerLength = 3#2)
    (h2 : s.payloadLength.toNat ≤ 32767) (h3 : s.bytesWritten.toNat ≤ s.maxLen) (h4 : s.rxDrop = false)
    (h5 : s.headerLength.toNat ≤ s.bytesReceived.toNat → s.payloadLength.toNat ≤ s.maxLen)
    (h6 : s.bytesReceived.toNat = 1 → s.headerLength = 3#2 → s.payloadLength.toNat ≤ 0x7F00)
    (h7 : Memory.wf s.payload) (h8 : ∀ c ∈ s.payload, c.1 < s.maxLen) : SoundState (endByte s) := by
  have hn := countByte_toNat s
  have hb := s.bytesReceived.isLt
  have hl := headerLength_toNat h1
  rcases endByte_cases s with ⟨h, e⟩ | ⟨h, e⟩ | ⟨h, e⟩ <;> rw [e]
  · rw [countTest_eq_neither] at h
    have hz : (countByte s).bytesReceived ≠ 0#16 := fun hz => by simp [hz] at hn; omega
    refine ⟨by simpa, by simpa, by simpa, by simp [h4], fun hz' => absurd hz' hz, ?_, ?_, by simpa,
      by simpa using h8⟩
    · simp only [hn, countByte_headerLength, countByte_payloadLength, countByte_maxLen] at h ⊢
      intro hle
      by_cases hq : s.headerLength.toNat ≤ s.bytesReceived.toNat
      · exact h5 hq
      · omega
    · intro h2' h3'
      simp only [countByte_headerLength, countByte_payloadLength] at h3' ⊢
      rw [h2'] at hn
      simp at hn
      exact h6 (by omega) h3'
  · exact rejectOversize_inv (by simpa) (by simpa) (by simpa) (by simpa) (by simpa using h8)
  · exact completeFrame_inv (by simpa) (by simpa) (by simpa) (by simpa using h8)

/-- A logical byte goes on and keeps the invariant, in every phase. -/
theorem acceptLogical_goesOn (v : Byte) {s : State} (h : SoundState s) :
    ∃ t, acceptLogical v s = .next t ∧ SoundState t := by
  have hl := headerLength_toNat h.headerLength
  have hv := v.isLt
  rcases acceptLogical_cases v s with ⟨hp, e⟩ | ⟨hp, e⟩ | ⟨hp, e⟩ | ⟨hp, e⟩ | ⟨hp, e⟩ | ⟨hp, e⟩
  · exact ⟨s, e, h⟩
  · obtain ⟨hd, h0⟩ := phase_eq_idle.1 hp
    refine ⟨_, e, endByte_inv (by simpa using h.headerLength) (by simpa using h.payloadLength)
      (by simpa using h.bytesWritten) (by simpa) (by simp [h0]; omega) (by simp [h0]) (by simpa using h.bufferOrdered)
      (by simpa using h.bufferInRange)⟩
  · obtain ⟨hd, h1⟩ := phase_eq_len1.1 hp
    have hf := firstLengthOf_le v
    have hh := headerLength_toNat (headerLengthOf_or v)
    refine ⟨_, e, endByte_inv (by simpa using headerLengthOf_or v) (by simp; omega)
      (by simpa using h.bytesWritten) (by simpa) (by simp [h1]; omega) (by simp; omega)
      (by simpa using h.bufferOrdered) (by simpa using h.bufferInRange)⟩
  · obtain ⟨hd, h2, h3⟩ := phase_eq_len2.1 hp
    have hf := h.highPartOnly h2 h3
    have ha := addLength_toNat v hf
    refine ⟨_, e, endByte_inv (by simpa using h.headerLength) ?_ (by simpa using h.bytesWritten) (by simpa)
      (by simp [h2, h3]) (by simp [h2]) (by simpa using h.bufferOrdered) (by simpa using h.bufferInRange)⟩
    simp only [takeSecondLength_payloadLength, foldRxCrc_payloadLength, ha]
    omega
  · obtain ⟨hd, h2, hle, hi⟩ := phase_payload hp
    have hb := h.lengthBounded hle
    refine ⟨_, by rw [e, storeLogical, if_pos (by omega)], endByte_inv (by simpa using h.headerLength)
      (by simpa using h.payloadLength) (by simpa using h.bytesWritten) (by simpa) (by simpa using h.lengthBounded)
      (by simp; omega) (by simpa using Memory.write_wf h.bufferOrdered _ _) ?_⟩
    intro c hc
    simp only [storePayload_payload, foldRxCrc_payload, storePayload_maxLen, foldRxCrc_maxLen] at hc ⊢
    rcases Memory.mem_write hc with rfl | hc
    · show s.payloadIndex < s.maxLen
      omega
    · exact h.bufferInRange c hc
  · have hd : s.rxDrop = false ∧ 2 ≤ s.bytesReceived.toNat := by
      rcases hp with hp | hp
      · obtain ⟨hd, _, h3, _⟩ := phase_crc hp
        exact ⟨hd, by omega⟩
      · obtain ⟨hd, _, h3, _⟩ := phase_overrun hp
        exact ⟨hd, h3⟩
    exact ⟨_, e, endByte_inv (by simpa using h.headerLength) (by simpa using h.payloadLength)
      (by simpa using h.bytesWritten) (by simpa using hd.1) (by simpa using h.lengthBounded) (by simp; omega)
      (by simpa using h.bufferOrdered) (by simpa using h.bufferInRange)⟩

/-- A raw byte goes on and keeps the invariant, whatever it is. -/
theorem receiveRaw_goesOn (b : Byte) {s : State} (h : SoundState s) : ∃ t, receiveRaw b s = .next t ∧ SoundState t := by
  have hf : ∀ f, SoundState { s with unEscaping := f } := fun f => h.congr rfl rfl rfl rfl rfl rfl rfl rfl
  unfold receiveRaw
  split
  · exact ⟨_, rfl, boundaryReset_inv h⟩
  · unfold acceptRaw
    split
    · exact ⟨_, rfl, hf _⟩
    · exact acceptLogical_goesOn _ (hf _)

/-- An append keeps the invariant. -/
theorem appendByte_inv (b : Byte) {s : State} (h : SoundState s) : SoundState (appendByte b s) := by
  unfold appendByte
  split
  · exact h.congr rfl rfl rfl rfl rfl rfl rfl rfl
  · rename_i hlt
    have hm := s.cfg.maxPayloadLength.isLt
    refine ⟨h.headerLength, h.payloadLength, ?_, h.dropIsIdle, h.idleCrc, h.lengthBounded, h.highPartOnly,
      Memory.write_wf h.bufferOrdered _ _, ?_⟩
    · show (s.bytesWritten + 1#16).toNat ≤ s.maxLen
      simp only [State.maxLen] at hlt ⊢
      simp only [BitVec.toNat_add, BitVec.toNat_ofNat]
      omega
    · intro c hc
      rcases Memory.mem_write hc with rfl | hc
      · exact Nat.not_le.1 hlt
      · exact h.bufferInRange c hc

end Sys2Proof.Safety
end

