-- ==== Sys2Proof/Laws/PerInstr.lean ====
section
/-! SUPPORT. Per instruction: the word of an instruction has a number of bytes that its format admits (30_encoding.md R100;
the formats without bits: log 7). -/

namespace Sys2Proof.Laws.FormatLength

/-- How many bytes a word of each format has: one; two for a pair; one or two for the length field (R84, R85). -/
def admitted : Port → List Nat
  | .raw8 => [1]
  | .log8 => [1]
  | .esc16 => [2]
  | .len1 => [1, 2]
  | .cmd8 => [1]
  | .phase => [1]
  | .countTest => [0]
  | .reset => [1]
  | .bufAppend => [1]
  | .txFrame => [1]
  | .rxByte => [1]
  | .encByte => [1]
  | .decByte => [1]
  | .crc16Update => [3]

/-- The encoded word has a length its format admits. -/
def Statement (i : Instr) : Prop :=
  (encode i).bytes.length ∈ admitted (encode i).port

theorem rxFlag : Statement .rxFlag := by simp [Statement, encode, admitted]

theorem rxEsc : Statement .rxEsc := by simp [Statement, encode, admitted]

theorem rxUnesc (b : Byte) : Statement (.rxUnesc b) := by simp [Statement, encode, admitted]

theorem rxLit (b : Byte) : Statement (.rxLit b) := by simp [Statement, encode, admitted]

theorem encEsc7E : Statement .encEsc7E := by simp [Statement, encode, admitted]

theorem encEsc7D : Statement .encEsc7D := by simp [Statement, encode, admitted]

theorem encLit (b : Byte) : Statement (.encLit b) := by simp [Statement, encode, admitted]

theorem escPair7E : Statement .escPair7E := by simp [Statement, encode, admitted]

theorem escPair7D : Statement .escPair7D := by simp [Statement, encode, admitted]

theorem lenShort (n : BitVec 7) : Statement (.lenShort n) := by simp [Statement, encode, admitted]

theorem lenLong (nHi : BitVec 7) (nLo : Byte) : Statement (.lenLong nHi nLo) := by simp [Statement, encode, admitted]

theorem cmdRequest (c : BitVec 7) : Statement (.cmdRequest c) := by simp [Statement, encode, admitted]

theorem cmdReply (c : BitVec 7) : Statement (.cmdReply c) := by simp [Statement, encode, admitted]

theorem cmdStd80 : Statement .cmdStd80 := by simp [Statement, encode, admitted]

theorem cmdStd81 : Statement .cmdStd81 := by simp [Statement, encode, admitted]

theorem cmdStd82 : Statement .cmdStd82 := by simp [Statement, encode, admitted]

theorem cmdStd83 : Statement .cmdStd83 := by simp [Statement, encode, admitted]

theorem cmdStd84 : Statement .cmdStd84 := by simp [Statement, encode, admitted]

theorem cmdStd85 : Statement .cmdStd85 := by simp [Statement, encode, admitted]

theorem cmdStd86 : Statement .cmdStd86 := by simp [Statement, encode, admitted]

theorem rxCmd (v : Byte) : Statement (.rxCmd v) := by simp [Statement, encode, admitted]

theorem rxLen1 (v : Byte) : Statement (.rxLen1 v) := by simp [Statement, encode, admitted]

theorem rxLen2 (v : Byte) : Statement (.rxLen2 v) := by simp [Statement, encode, admitted]

theorem rxPayload (v : Byte) : Statement (.rxPayload v) := by simp [Statement, encode, admitted]

theorem rxCrc (v : Byte) : Statement (.rxCrc v) := by simp [Statement, encode, admitted]

theorem rxOverrun (v : Byte) : Statement (.rxOverrun v) := by simp [Statement, encode, admitted]

theorem rxDrop (v : Byte) : Statement (.rxDrop v) := by simp [Statement, encode, admitted]

theorem rxOversize : Statement .rxOversize := by simp [Statement, encode, admitted]

theorem rxComplete : Statement .rxComplete := by simp [Statement, encode, admitted]

theorem reset (c : Bool) : Statement (.reset c) := by cases c <;> simp [Statement, encode, admitted]

theorem bufAppend (b : Byte) : Statement (.bufAppend b) := by simp [Statement, encode, admitted]

theorem txFrame (cmd : Byte) : Statement (.txFrame cmd) := by simp [Statement, encode, admitted]

theorem rxByte (b : Byte) : Statement (.rxByte b) := by simp [Statement, encode, admitted]

theorem encByte (b : Byte) : Statement (.encByte b) := by simp [Statement, encode, admitted]

theorem decByte (b : Byte) : Statement (.decByte b) := by simp [Statement, encode, admitted]

theorem crc16Update (c : Word16) (b : Byte) : Statement (.crc16Update c b) := by simp [Statement, encode, admitted]

end Sys2Proof.Laws.FormatLength
end

