-- ==== Sys2Proof/Tests/Slice0.lean ====
section
/-! SUPPORT. Tests: the well-formedness check, words written out from the spec's encodings, one step per row with the
values of spec/95_test_vectors.md (T<n>, P1) and of 43_crc16.md R195, and a witness for the hypotheses of each
statement. -/

namespace Sys2Proof.Tests

open Sys2Proof.Machine Sys2Proof.Safety

/-! ## Helpers -/

/-- The next state of an outcome, if it has one. -/
def nextOf : Host.Outcome State Fault Refusal → Option State
  | .next t => some t
  | .fault _ => none
  | .refused _ => none

theorem next_of_isSome {o : Host.Outcome State Fault Refusal} (h : (nextOf o).isSome = true) : ∃ t, o = .next t := by
  cases o with
  | next t => exact ⟨t, rfl⟩
  | fault r => cases h
  | refused r => cases h

/-- What is read from the state after an instruction. -/
def after {α : Type} (i : Instr) (s : State) (f : State → α) : Option α := (nextOf (exec i s)).map f

/-- What is read from the state after a run of raw bytes. -/
def received {α : Type} (bs : List Byte) (s : State) (f : State → α) : Option α := (nextOf (receiveAll bs s)).map f

/-- A decoder in the middle of a frame: how many bytes it has counted, its header and payload lengths, its CRC. -/
def inFrame (count : Word16) (header : BitVec 2) (length crc : Word16) : State :=
  { State.reset with
    packetCmd := 0xA1#8, bytesReceived := count, headerLength := header, payloadLength := length, rxCrc := crc }

/-- The same with an escape pending. -/
def escaped (s : State) : State := { s with unEscaping := true }

/-- The same with another buffer size. -/
def sized (n : Fin 32768) (s : State) : State := { s with cfg := ⟨n⟩ }

/-- The same without CRC. -/
def noCrc (s : State) : State := { s with crcEnabled := false }

/-- A state in mid-frame that meets the invariant: a short frame of 5 payload bytes, 2 of them stored (T32). -/
def midFrame : State :=
  { inFrame 4#16 2#2 5#16 0x90BF#16 with payload := [(0, 0x11#8), (1, 0x22#8)] }

/-- A decoder in phase DROP after an oversize frame (T9). -/
def dropping : State := { inFrame 0#16 3#2 2002#16 0xFFFF#16 with rxDrop := true }

/-! ## Well-formedness refuses each ill-formed term -/

theorem test_wf_unesc_7D : (Instr.rxUnesc 0x7D#8).wellFormed = false := by decide
theorem test_wf_unesc_7E : (Instr.rxUnesc 0x7E#8).wellFormed = true := by decide
theorem test_wf_lit_7E : (Instr.rxLit 0x7E#8).wellFormed = false := by decide
theorem test_wf_lit_7D : (Instr.rxLit 0x7D#8).wellFormed = false := by decide
theorem test_wf_enc_lit_7E : (Instr.encLit 0x7E#8).wellFormed = false := by decide
theorem test_wf_enc_lit_7D : (Instr.encLit 0x7D#8).wellFormed = false := by decide
theorem test_wf_request_reserved : (Instr.cmdRequest 6#7).wellFormed = false := by decide
theorem test_wf_request_application : (Instr.cmdRequest 7#7).wellFormed = true := by decide

/-! ## Decoding words written out from the spec -/

/-- A state of the selecting registers in the given phase, no escape pending. -/
def at' (p : Phase) : Selector := ⟨false, p, .neither⟩

/-- RAW8, 30_encoding.md R94. -/
theorem test_decode_raw8 :
    decode (at' .idle) ⟨.raw8, [0b01111110#8]⟩ = .ok .rxFlag ∧
    decode (at' .idle) ⟨.raw8, [0b01111101#8]⟩ = .ok .rxEsc ∧
    decode ⟨true, .idle, .neither⟩ ⟨.raw8, [0b01011110#8]⟩ = .ok (.rxUnesc 0x5E#8) ∧
    decode (at' .idle) ⟨.raw8, [0b01011110#8]⟩ = .ok (.rxLit 0x5E#8) := by decide

/-- LOG8, R95, and ESC16, R81. -/
theorem test_decode_log8_esc16 :
    decode (at' .idle) ⟨.log8, [0b01111110#8]⟩ = .ok .encEsc7E ∧
    decode (at' .idle) ⟨.log8, [0b01111101#8]⟩ = .ok .encEsc7D ∧
    decode (at' .idle) ⟨.log8, [0b01111111#8]⟩ = .ok (.encLit 0x7F#8) ∧
    decode (at' .idle) ⟨.esc16, [0b01111101#8, 0b01011110#8]⟩ = .ok .escPair7E ∧
    decode (at' .idle) ⟨.esc16, [0b01111101#8, 0b01011101#8]⟩ = .ok .escPair7D ∧
    decode (at' .idle) ⟨.esc16, [0b01111101#8, 0b01111110#8]⟩ = .rejected .notAnEscapedPair := by decide

/-- LEN1, R84 and R85: `N = 127`, `N = 200` (80 C8), `N = 382` (81 7E). -/
theorem test_decode_len1 :
    decode (at' .len1) ⟨.len1, [0b01111111#8]⟩ = .ok (.lenShort 127#7) ∧
    decode (at' .len1) ⟨.len1, [0b10000000#8, 0b11001000#8]⟩ = .ok (.lenLong 0#7 200#8) ∧
    decode (at' .len1) ⟨.len1, [0b10000001#8, 0b01111110#8]⟩ = .ok (.lenLong 1#7 0x7E#8) ∧
    decode (at' .len1) ⟨.len1, [0b10000001#8]⟩ = .rejected .wrongLength := by decide

/-- CMD8, R83 and R91. -/
theorem test_decode_cmd8 :
    decode (at' .idle) ⟨.cmd8, [0b10000111#8]⟩ = .ok (.cmdRequest 7#7) ∧
    decode (at' .idle) ⟨.cmd8, [0b00000111#8]⟩ = .ok (.cmdReply 7#7) ∧
    decode (at' .idle) ⟨.cmd8, [0b10000000#8]⟩ = .ok .cmdStd80 ∧
    decode (at' .idle) ⟨.cmd8, [0b10000001#8]⟩ = .ok .cmdStd81 ∧
    decode (at' .idle) ⟨.cmd8, [0b10000010#8]⟩ = .ok .cmdStd82 ∧
    decode (at' .idle) ⟨.cmd8, [0b10000011#8]⟩ = .ok .cmdStd83 ∧
    decode (at' .idle) ⟨.cmd8, [0b10000100#8]⟩ = .ok .cmdStd84 ∧
    decode (at' .idle) ⟨.cmd8, [0b10000101#8]⟩ = .ok .cmdStd85 ∧
    decode (at' .idle) ⟨.cmd8, [0b10000110#8]⟩ = .ok .cmdStd86 := by decide

/-- PHASE, 42_packet_decoder.md R152: the same byte is another row in each phase. -/
theorem test_decode_phase :
    decode (at' .idle) ⟨.phase, [0x42#8]⟩ = .ok (.rxCmd 0x42#8) ∧
    decode (at' .len1) ⟨.phase, [0x42#8]⟩ = .ok (.rxLen1 0x42#8) ∧
    decode (at' .len2) ⟨.phase, [0x42#8]⟩ = .ok (.rxLen2 0x42#8) ∧
    decode (at' .payload) ⟨.phase, [0x42#8]⟩ = .ok (.rxPayload 0x42#8) ∧
    decode (at' .crc) ⟨.phase, [0x42#8]⟩ = .ok (.rxCrc 0x42#8) ∧
    decode (at' .overrun) ⟨.phase, [0x42#8]⟩ = .ok (.rxOverrun 0x42#8) ∧
    decode (at' .drop) ⟨.phase, [0x42#8]⟩ = .ok (.rxDrop 0x42#8) ∧
    decode ⟨false, .idle, .oversize⟩ ⟨.countTest, []⟩ = .ok .rxOversize ∧
    decode ⟨false, .idle, .complete⟩ ⟨.countTest, []⟩ = .ok .rxComplete := by decide

/-- OP and FUNC, the model's own words (log 7). -/
theorem test_decode_op_func :
    decode (at' .idle) ⟨.reset, [1#8]⟩ = .ok (.reset true) ∧
    decode (at' .idle) ⟨.reset, [2#8]⟩ = .rejected .resetOperandNotOneBit ∧
    decode (at' .idle) ⟨.bufAppend, [0x42#8]⟩ = .ok (.bufAppend 0x42#8) ∧
    decode (at' .idle) ⟨.txFrame, [0xA1#8]⟩ = .ok (.txFrame 0xA1#8) ∧
    decode (at' .idle) ⟨.rxByte, [0x7E#8]⟩ = .ok (.rxByte 0x7E#8) ∧
    decode (at' .idle) ⟨.encByte, [0x7E#8]⟩ = .ok (.encByte 0x7E#8) ∧
    decode (at' .idle) ⟨.decByte, [0x7E#8]⟩ = .ok (.decByte 0x7E#8) ∧
    decode (at' .idle) ⟨.crc16Update, [0xBF#8, 0x38#8, 0#8]⟩ = .ok (.crc16Update 0x38BF#16 0#8) := by decide

/-- The table's bare words (log 15). -/
theorem test_decode_table_words :
    decodeTableWord 8 0x7E = some .rxFlag ∧ decodeTableWord 8 0x7D = some .rxEsc ∧
    decodeTableWord 16 0x7D5E = some .escPair7E ∧ decodeTableWord 16 0x7D5D = some .escPair7D ∧
    decodeTableWord 8 0x00 = some (.lenShort 0#7) ∧ decodeTableWord 8 0x87 = some (.lenLong 7#7 0#8) ∧
    decodeTableWord 8 0x80 = some .cmdStd80 ∧ decodeTableWord 8 0x86 = some .cmdStd86 ∧
    decodeTableWord 16 0x7D7E = none ∧ decodeTableWord 12 0x00 = none := by decide

/-- A placed word is run by the first step after reset. -/
theorem test_step_placed :
    (nextOf (step (State.reset.withFetchWord 8 0x7D))).map (·.unEscaping) = some true ∧
    (nextOf (step (State.reset.withFetchWord 8 0x80))).map (·.packetCmd) = some 0x80#8 ∧
    (nextOf (step (State.reset.withFetchWord 8 0x05))).map (·.payloadLength) = some 5#16 := by decide

/-! ## One step per row -/

/-- T6: the boundary in mid-packet; `pl` survives. -/
theorem test_rxFlag :
    after .rxFlag (inFrame 3#16 2#2 1#16 0x83A1#16) (fun t => (t.bytesReceived, t.rxCrc, t.payloadLength, t.events)) =
      some (0#16, 0xFFFF#16, 1#16, []) := by decide

/-- T3. -/
theorem test_rxEsc :
    after .rxEsc (inFrame 2#16 2#2 1#16 0xE0B9#16) (fun t => (t.bytesReceived, t.unEscaping, t.rxCrc)) =
      some (2#16, true, 0xE0B9#16) := by decide

/-- T3: the second half of a pair. -/
theorem test_rxUnesc :
    after (.rxUnesc 0x5E#8) (escaped (inFrame 2#16 2#2 1#16 0xE0B9#16))
      (fun t => (t.bytesReceived, t.unEscaping, t.rxCrc, t.payload)) =
      some (3#16, false, 0x92A1#16, [(0, 0x7E#8)]) := by decide

/-- T12: a pending escape swallows a boundary. -/
theorem test_rxUnesc_boundary :
    after (.rxUnesc 0x7E#8) (escaped (inFrame 2#16 2#2 2#16 0xE1F9#16))
      (fun t => (t.bytesReceived, t.unEscaping, t.rxCrc, t.payload)) =
      some (3#16, false, 0xBAA0#16, [(0, 0x5E#8)]) := by decide

/-- T2. -/
theorem test_rxLit :
    after (.rxLit 0x42#8) (inFrame 2#16 2#2 1#16 0xE0B9#16) (fun t => (t.bytesReceived, t.rxCrc, t.payload)) =
      some (3#16, 0x83A1#16, [(0, 0x42#8)]) := by decide

/-- T40. -/
theorem test_encEsc7E : after .encEsc7E State.reset (·.emitted) = some [0x7D#8, 0x5E#8] := by decide

/-- T41. -/
theorem test_encEsc7D : after .encEsc7D State.reset (·.emitted) = some [0x7D#8, 0x5D#8] := by decide

/-- T42. -/
theorem test_encLit : after (.encLit 0x5E#8) State.reset (·.emitted) = some [0x5E#8] := by decide

/-- T3, both raw bytes. -/
theorem test_escPair7E :
    after .escPair7E (inFrame 2#16 2#2 1#16 0xE0B9#16) (fun t => (t.bytesReceived, t.unEscaping, t.rxCrc, t.payload)) =
      some (3#16, false, 0x92A1#16, [(0, 0x7E#8)]) := by decide

/-- T51's frame at the receiver. -/
theorem test_escPair7D :
    after .escPair7D (inFrame 2#16 2#2 1#16 0xE0B9#16) (fun t => (t.bytesReceived, t.unEscaping, t.rxCrc, t.payload)) =
      some (3#16, false, 0x93E1#16, [(0, 0x7D#8)]) := by decide

/-- T2. -/
theorem test_lenShort :
    after (.lenShort 1#7) (inFrame 1#16 2#2 0#16 0xF87E#16)
      (fun t => (t.headerLength, t.payloadLength, t.bytesReceived, t.rxCrc)) =
      some (2#2, 1#16, 2#16, 0xE0B9#16) := by decide

/-- T10: oversize, short form. -/
theorem test_lenShort_oversize :
    after (.lenShort 127#7) (sized 100 (inFrame 1#16 2#2 0#16 0xF87E#16))
      (fun t => (t.payloadLength, t.bytesReceived, t.rxCrc, t.rxDrop, t.events)) =
      some (127#16, 0#16, 0xFFFF#16, true, [.rxError 6#8]) := by decide

/-- T15: a non-canonical long form. -/
theorem test_lenLong :
    after (.lenLong 0#7 1#8) (inFrame 1#16 2#2 0#16 0xF87E#16)
      (fun t => (t.headerLength, t.payloadLength, t.bytesReceived, t.rxCrc)) =
      some (3#2, 1#16, 3#16, 0x2280#16) := by decide +kernel

/-- T9: oversize, long form. -/
theorem test_lenLong_oversize :
    after (.lenLong 7#7 0xD2#8) (inFrame 1#16 2#2 0#16 0xF87E#16)
      (fun t => (t.payloadLength, t.bytesReceived, t.rxCrc, t.rxDrop, t.events)) =
      some (2002#16, 0#16, 0xFFFF#16, true, [.rxError 6#8]) := by decide

/-- T1. -/
theorem test_cmdRequest :
    after (.cmdRequest 0x20#7) State.reset (fun t => (t.packetCmd, t.bytesReceived, t.rxCrc)) =
      some (0xA0#8, 1#16, 0x38BF#16) := by decide

/-- P1. -/
theorem test_cmdReply :
    after (.cmdReply 7#7) State.reset (fun t => (t.packetCmd, t.bytesReceived, t.rxCrc)) =
      some (0x07#8, 1#16, 0x82FE#16) := by decide

/-- T4. -/
theorem test_cmdStd80 :
    after .cmdStd80 State.reset (fun t => (t.packetCmd, t.bytesReceived, t.rxCrc)) =
      some (0x80#8, 1#16, 0xE0BE#16) := by decide

/-- R91: the request bytes. -/
theorem test_cmdStd :
    [Instr.cmdStd81, .cmdStd82, .cmdStd83, .cmdStd84, .cmdStd85, .cmdStd86].map
      (fun i => after i State.reset (·.packetCmd)) =
      [some 0x81#8, some 0x82#8, some 0x83#8, some 0x84#8, some 0x85#8, some 0x86#8] := by decide

/-- T2. -/
theorem test_rxCmd :
    after (.rxCmd 0xA1#8) State.reset (fun t => (t.packetCmd, t.bytesReceived, t.rxCrc)) =
      some (0xA1#8, 1#16, 0xF87E#16) := by decide

/-- T9. -/
theorem test_rxLen1_long :
    after (.rxLen1 0x87#8) (inFrame 1#16 2#2 0#16 0xF87E#16)
      (fun t => (t.headerLength, t.payloadLength, t.bytesReceived, t.rxCrc)) =
      some (3#2, 1792#16, 2#16, 0x4238#16) := by decide

/-- T8: with the CRC disabled an empty packet completes on its length byte. -/
theorem test_rxLen1_complete :
    after (.rxLen1 0#8) (noCrc (inFrame 1#16 2#2 0#16 0x38BF#16)) (fun t => (t.bytesReceived, t.rxCrc, t.events)) =
      some (0#16, 0xFFFF#16, [.rxPacket 0xA1#8 0#16]) := by decide

/-- T15. -/
theorem test_rxLen2 :
    after (.rxLen2 1#8) (inFrame 2#16 3#2 0#16 0x8079#16)
      (fun t => (t.headerLength, t.payloadLength, t.bytesReceived, t.rxCrc)) =
      some (3#2, 1#16, 3#16, 0x2280#16) := by decide

/-- T9. -/
theorem test_rxLen2_oversize :
    after (.rxLen2 0xD2#8) (inFrame 2#16 3#2 1792#16 0x4238#16)
      (fun t => (t.payloadLength, t.rxDrop, t.payload, t.events)) =
      some (2002#16, true, [], [.rxError 6#8]) := by decide

/-- T15: the header is three bytes. -/
theorem test_rxPayload_long :
    after (.rxPayload 0x42#8) (inFrame 3#16 3#2 1#16 0x2280#16) (fun t => (t.bytesReceived, t.rxCrc, t.payload)) =
      some (4#16, 0x91A3#16, [(0, 0x42#8)]) := by decide

/-- T8: the last payload byte completes the packet. -/
theorem test_rxPayload_complete :
    after (.rxPayload 0x42#8) (noCrc (inFrame 2#16 2#2 1#16 0xE0B9#16)) (fun t => (t.bytesReceived, t.rxCrc, t.events)) =
      some (0#16, 0xFFFF#16, [.rxPacket 0xA1#8 1#16]) := by decide

/-- T2. -/
theorem test_rxCrc_delivers :
    after (.rxCrc 0x83#8) (inFrame 4#16 2#2 1#16 0x0083#16) (fun t => (t.bytesReceived, t.rxCrc, t.payload, t.events)) =
      some (0#16, 0xFFFF#16, [], [.rxPacket 0xA1#8 1#16]) := by decide

/-- T7: a wrong CRC byte. -/
theorem test_rxCrc_bad :
    after (.rxCrc 0x82#8) (inFrame 4#16 2#2 1#16 0x0083#16) (fun t => (t.bytesReceived, t.rxCrc, t.events)) =
      some (0#16, 0xFFFF#16, [.rxError 7#8]) := by decide

/-- T32: past the total. -/
theorem test_rxOverrun :
    after (.rxOverrun 0x33#8) (inFrame 4#16 2#2 0#16 0x90BF#16) (fun t => (t.bytesReceived, t.payload, t.events)) =
      some (5#16, [], []) := by decide

/-- 10_state.md R42: the counter saturates. -/
theorem test_rxOverrun_saturates :
    after (.rxOverrun 0x33#8) (inFrame 0xFFFF#16 2#2 0#16 0x90BF#16) (·.bytesReceived) = some 0xFFFF#16 := by
  decide

/-- T9: a dropped byte changes nothing. -/
theorem test_rxDrop : after (.rxDrop 0x11#8) dropping (fun t => decide (t = dropping)) = some true := by decide

/-- T11, after the count. -/
theorem test_rxOversize :
    after .rxOversize (sized 3 (inFrame 2#16 2#2 4#16 0xF93E#16))
      (fun t => (t.bytesReceived, t.rxCrc, t.rxDrop, t.events)) =
      some (0#16, 0xFFFF#16, true, [.rxError 6#8]) := by decide

/-- T2, after the count of its last byte: the residue is zero. -/
theorem test_rxComplete :
    after .rxComplete { inFrame 5#16 2#2 1#16 0#16 with bytesRead := 2#16, bytesWritten := 1#16 }
      (fun t => (t.bytesReceived, t.rxCrc, t.bytesRead, t.bytesWritten, t.events)) =
      some (0#16, 0xFFFF#16, 0#16, 0#16, [.rxPacket 0xA1#8 1#16]) := by decide

/-- R38, from mid-frame. -/
theorem test_reset :
    after (.reset false) (escaped midFrame)
      (fun t => (t.payloadLength, t.bytesReceived, t.unEscaping, t.rxCrc, t.crcEnabled)) =
      some (0#16, 0#16, false, 0xFFFF#16, false) := by decide

/-- T31, the second append. -/
theorem test_bufAppend :
    after (.bufAppend 0x22#8) (sized 2 { State.reset with bytesWritten := 1#16, payload := [(0, 0x11#8)] })
      (fun t => (t.bytesWritten, t.payload, t.events)) =
      some (2#16, [(0, 0x11#8), (1, 0x22#8)], []) := by decide

/-- T31, the third append: full. -/
theorem test_bufAppend_full :
    after (.bufAppend 0x33#8) (sized 2 { State.reset with bytesWritten := 2#16, payload := [(0, 0x11#8), (1, 0x22#8)] })
      (fun t => (t.bytesWritten, t.payload, t.events)) =
      some (2#16, [(0, 0x11#8), (1, 0x22#8)], [.bufError 6#8]) := by decide

/-- T31's frame. -/
theorem test_txFrame :
    after (.txFrame 0x90#8) (sized 2 { State.reset with bytesWritten := 2#16, payload := [(0, 0x11#8), (1, 0x22#8)] })
      (fun t => (t.emitted, t.bytesWritten, t.payloadLength, t.packetCmd, t.txCrc)) =
      some ([0x7E#8, 0x90#8, 0x02#8, 0x11#8, 0x22#8, 0x00#8, 0xAD#8], 0#16, 0#16, 0x90#8, 0xAD00#16) := by
  decide +kernel

/-- T66: an escaped CRC byte. -/
theorem test_txFrame_escaped_crc :
    after (.txFrame 0x80#8) { State.reset with bytesWritten := 1#16, payload := [(0, 0x08#8)] } (·.emitted) =
      some [0x7E#8, 0x80#8, 0x01#8, 0x08#8, 0x70#8, 0x7D#8, 0x5E#8] := by decide +kernel

/-- T3, whole. -/
theorem test_rxByte_frame :
    received [0x7E#8, 0xA1#8, 0x01#8, 0x7D#8, 0x5E#8, 0xA1#8, 0x92#8] State.reset (fun t => (t.events, t.payload)) =
      some ([.rxPacket 0xA1#8 1#16], [(0, 0x7E#8)]) := by decide +kernel

/-- T33: a bogus completion after TX.FRAME in mid-frame. -/
theorem test_rxByte_bogus :
    after (.rxByte 0xA1#8) (inFrame 3#16 2#2 0#16 0x83A1#16) (fun t => (t.bytesReceived, t.events)) =
      some (0#16, [.rxError 7#8]) := by decide

/-- T43. -/
theorem test_encByte :
    (nextOf (execAll [.encByte 0x7D#8, .encByte 0x7E#8, .encByte 0x42#8] State.reset)).map (·.emitted) =
      some [0x7D#8, 0x5D#8, 0x7D#8, 0x5E#8, 0x42#8] := by decide

/-- T45, its second byte. -/
theorem test_decByte :
    after (.decByte 0x21#8) (escaped State.reset) (fun t => (t.unEscaping, t.results)) =
      some (false, [.logical (some 0x01#8)]) := by decide

/-- T46, its second byte. -/
theorem test_decByte_escape :
    after (.decByte 0x7D#8) (escaped State.reset) (fun t => (t.unEscaping, t.results)) =
      some (true, [.logical none]) := by decide

/-- T20. -/
theorem test_crc16Update :
    after (.crc16Update 0xFFFF#16 0xA0#8) State.reset (·.results) = some [.crc 0x38BF#16] := by decide

/-- 43_crc16.md R195. -/
theorem test_crc_reference_values :
    crc16Update 0x0000#16 0x01#8 = 0xC0C1#16 ∧ crc16Update 0x0000#16 0x80#8 = 0xA001#16 ∧
    crc16Update 0x0000#16 0xFF#8 = 0x4040#16 ∧ crc16Update 0xFFFF#16 0x00#8 = 0x40BF#16 ∧
    crc16 [0xA1#8, 0x00#8] = 0x2078#16 ∧ crc16 [0xA8#8, 0x00#8] = 0x707E#16 ∧
    crc16 [0x31#8, 0x32#8, 0x33#8, 0x34#8, 0x35#8, 0x36#8, 0x37#8, 0x38#8, 0x39#8] = 0x4B37#16 := by decide +kernel

/-- P1, the host's last lines: the return code stripped, then the channel count read low byte first. -/
theorem test_environment_reads :
    (nextOf (envAct .readU16
      { inFrame 0#16 2#2 2#16 0xFFFF#16 with payload := [(0, 0x28#8), (1, 0#8), (2, 0#8)] })).map
      (fun t => (t.bytesRead, t.results)) = some (2#16, [.bytes [0x28#8, 0#8]]) ∧
    (nextOf (envAct .stripReturnCode (inFrame 0#16 2#2 3#16 0xFFFF#16))).map (·.payloadLength) = some 2#16 ∧
    (nextOf (envAct .readString
      { inFrame 0#16 2#2 3#16 0xFFFF#16 with payload := [(0, 0x41#8), (1, 0#8), (2, 0#8)] })).map
      (fun t => (t.bytesRead, t.results)) = some (2#16, [.bytes [0x41#8]]) := by decide

/-! ## Witnesses: states and operands that meet the hypotheses of each statement, at the ends of their ranges -/

/-- The fields of the invariant as one decidable test, for concrete states. -/
abbrev soundFields (s : State) : Prop :=
  (s.headerLength = 2#2 ∨ s.headerLength = 3#2) ∧ s.payloadLength.toNat ≤ 32767 ∧
  s.bytesWritten.toNat ≤ s.maxLen ∧ (s.rxDrop = true → s.bytesReceived = 0#16) ∧
  (s.bytesReceived = 0#16 → s.rxCrc = 0xFFFF#16) ∧
  (s.headerLength.toNat ≤ s.bytesReceived.toNat → s.payloadLength.toNat ≤ s.maxLen) ∧
  (s.bytesReceived = 2#16 → s.headerLength = 3#2 → s.payloadLength.toNat ≤ 0x7F00) ∧
  Memory.wf s.payload ∧ (∀ c ∈ s.payload, c.1 < s.maxLen)

theorem soundState_of_fields {s : State} (h : soundFields s) : SoundState s := by
  obtain ⟨h1, h2, h3, h4, h5, h6, h7, h8, h9⟩ := h
  exact ⟨h1, h2, h3, h4, h5, h6, h7, h8, h9⟩

/-- The position a row needs, as a decidable test. -/
def inPosition (s : State) (i : Instr) : Bool :=
  match (encode i).port with
  | .len1 => s.phase == .len1
  | .cmd8 => s.phase == .idle
  | _ => true

/-- Decoders idle, at the first length byte, and at the second. -/
def idle : State := inFrame 0#16 2#2 5#16 0xFFFF#16
def atLen1 : State := inFrame 1#16 2#2 5#16 0xF87E#16
def atLen2 : State := inFrame 2#16 3#2 0x0700#16 0x4238#16

/-- A state that meets the invariant and selects the row, for each row (for RX.OVERSIZE see witness_OversizeRow). -/
def completionsRaw : List (Instr × State) :=
  [(.rxFlag, midFrame), (.rxEsc, midFrame), (.rxUnesc 0x7E#8, escaped midFrame), (.rxLit 0x7F#8, midFrame),
   (.encEsc7E, midFrame), (.encEsc7D, midFrame), (.encLit 0x7C#8, midFrame), (.escPair7E, escaped midFrame),
   (.escPair7D, midFrame)]

def completionsHeader : List (Instr × State) :=
  [(.lenShort 127#7, atLen1), (.lenLong 127#7 255#8, atLen1), (.cmdRequest 7#7, idle), (.cmdReply 127#7, idle),
   (.cmdStd80, idle), (.cmdStd81, idle), (.cmdStd82, idle), (.cmdStd83, idle), (.cmdStd84, idle), (.cmdStd85, idle),
   (.cmdStd86, idle)]

def completionsPhase : List (Instr × State) :=
  [(.rxCmd 0x7E#8, idle), (.rxLen1 0xFF#8, atLen1), (.rxLen2 0xFF#8, atLen2), (.rxPayload 0x33#8, midFrame),
   (.rxCrc 0#8, inFrame 7#16 2#2 5#16 0x90BF#16), (.rxOverrun 0#8, inFrame 0xFFFF#16 2#2 5#16 0x90BF#16),
   (.rxDrop 0x7E#8, dropping), (.rxComplete, inFrame 9#16 2#2 5#16 0#16)]

def completionsOperation : List (Instr × State) :=
  [(.reset true, midFrame), (.bufAppend 0#8, midFrame), (.txFrame 0x7E#8, midFrame), (.rxByte 0x7E#8, midFrame),
   (.encByte 0x7E#8, midFrame), (.decByte 0x7E#8, midFrame), (.crc16Update 0#16 0#8, midFrame)]

/-- The hypotheses of Obligations.EverySelectedInstructionGoesOn, as one test. -/
def meetsHypotheses (x : Instr × State) : Bool :=
  decide (soundFields x.2) && x.1.wellFormed && x.1.selectedBy x.2.selector && inPosition x.2 x.1

theorem witness_EverySelectedInstructionGoesOn :
    completionsRaw.all meetsHypotheses = true ∧ completionsHeader.all meetsHypotheses = true ∧
    completionsPhase.all meetsHypotheses = true ∧ completionsOperation.all meetsHypotheses = true := by
  decide

theorem witness_InPosition :
    InPosition atLen1 (.lenShort 127#7) ∧ InPosition atLen1 (.lenLong 127#7 255#8) ∧ InPosition idle (.cmdReply 127#7) :=
  ⟨(by decide : atLen1.phase = .len1), (by decide : atLen1.phase = .len1),
    (by decide : idle.phase = .idle)⟩

theorem sound_midFrame : SoundState midFrame := soundState_of_fields (by decide)

theorem within_midFrame : WithinFrame midFrame := fun _ => by decide

theorem witness_LogicalClasses : (0x7F#8 : Byte) ≠ 0x7E#8 ∧ (0x7F#8 : Byte) ≠ 0x7D#8 := by decide

theorem witness_EncoderOutput : encodeBytes [0x42#8, 0x7E#8] = [0x42#8] ++ 0x7D#8 :: [0x5E#8] := by decide

theorem witness_UnescapedBoundary : midFrame.unEscaping = false ∧ (escaped midFrame).unEscaping = true := by decide

theorem witness_LogicalByte :
    ((escaped midFrame).unEscaping = true ∧ (0x7E#8 : Byte) ≠ 0x7D#8) ∧
    (midFrame.unEscaping = false ∧ (0x7F#8 : Byte) ≠ 0x7E#8 ∧ (0x7F#8 : Byte) ≠ 0x7D#8) := by decide

theorem witness_FlagIsSet :
    (∃ t, exec (.rxByte 0x7D#8) midFrame = .next t) ∧ (∃ t, exec (.rxByte 0x7E#8) (escaped dropping) = .next t) :=
  ⟨next_of_isSome (by decide), next_of_isSome (by decide)⟩

theorem witness_IdlePhase :
    (idle.rxDrop = false ∧ idle.bytesReceived = 0#16 ∧ idle.headerLength = 2#2) ∧
    (inFrame 0#16 3#2 2002#16 0xFFFF#16).headerLength = 3#2 := by decide

theorem witness_FirstLength :
    atLen1.rxDrop = false ∧ atLen1.bytesReceived = 1#16 ∧ (0x80#8 : Byte).getLsbD 7 = true ∧
    (0x7F#8 : Byte).getLsbD 7 = false ∧ (0x7F#8 : Byte).toNat ≤ (sized 127 atLen1).maxLen ∧
    (0#8 : Byte).toNat ≤ (sized 0 (noCrc atLen1)).maxLen ∧ (noCrc atLen1).crcEnabled = false := by decide

/-- The largest length, 32767, and the smallest. -/
theorem witness_SecondLength :
    (let s := sized 32767 (inFrame 2#16 3#2 0x7F00#16 0#16)
     s.rxDrop = false ∧ s.bytesReceived = 2#16 ∧ s.headerLength = 3#2 ∧ s.payloadLength.toNat ≤ 0x7F00 ∧
      s.payloadLength.toNat + (0xFF#8 : Byte).toNat ≤ s.maxLen) ∧
    (let s := sized 0 (noCrc (inFrame 2#16 3#2 0#16 0#16))
     s.payloadLength.toNat + (0#8 : Byte).toNat ≤ s.maxLen ∧
      s.payloadLength.toNat + (0#8 : Byte).toNat = 0 ∧ s.crcEnabled = false) := by decide

/-- One above the buffer, in both forms. -/
theorem witness_Oversize :
    (let s := sized 126 atLen1
     s.rxDrop = false ∧ s.bytesReceived = 1#16 ∧ (0x7F#8 : Byte).getLsbD 7 = false ∧ s.maxLen < (0x7F#8 : Byte).toNat) ∧
    (atLen2.rxDrop = false ∧ atLen2.bytesReceived = 2#16 ∧ atLen2.headerLength = 3#2 ∧
      atLen2.payloadLength.toNat ≤ 0x7F00 ∧ atLen2.maxLen < atLen2.payloadLength.toNat + (0xD2#8 : Byte).toNat) := by
  decide

/-- The first payload byte, and the last one of a frame that it completes. -/
theorem witness_PayloadByte :
    (let s := sized 2 (inFrame 3#16 3#2 2#16 0#16)
     s.phase = .payload ∧ s.payloadLength.toNat ≤ s.maxLen ∧ s.bytesReceived.toNat + 1 ≠ s.total) ∧
    (let s := sized 1 (noCrc (inFrame 2#16 2#2 1#16 0#16))
     s.phase = .payload ∧ s.payloadLength.toNat ≤ s.maxLen ∧ s.bytesReceived.toNat + 1 = s.total) := by decide

/-- The first CRC byte and the second. -/
theorem witness_CrcByte :
    (let s := inFrame 3#16 2#2 1#16 0#16
     s.phase = .crc ∧ s.payloadLength.toNat ≤ 32767 ∧ s.bytesReceived.toNat + 1 ≠ s.total) ∧
    (let s := inFrame 4#16 2#2 1#16 0#16
     s.phase = .crc ∧ s.bytesReceived.toNat + 1 = s.total) := by decide

theorem witness_Overrun :
    (let s := inFrame 4#16 2#2 0#16 0#16
     s.phase = .overrun ∧ s.payloadLength.toNat ≤ 32767) ∧
    (inFrame 0xFFFF#16 2#2 32767#16 0#16).phase = .overrun := by decide

/-- A pending escape hides the boundary (T9). -/
theorem witness_Drop :
    dropping.rxDrop = true ∧ holdsBoundary dropping.unEscaping [0x11#8, 0x7D#8, 0x7E#8, 0x22#8] = false := by
  decide

theorem witness_OversizeRow :
    (let s := sized 3 (inFrame 2#16 2#2 4#16 0#16)
     s.bytesReceived.toNat = s.headerLength.toNat ∧ s.maxLen < s.payloadLength.toNat) ∧
    (let s := sized 3 (inFrame 3#16 3#2 4#16 0#16)
     s.bytesReceived.toNat = s.headerLength.toNat ∧ s.maxLen < s.payloadLength.toNat) := by decide

/-- A good residue and a bad one. -/
theorem witness_CompleteRow :
    (let s := inFrame 5#16 2#2 1#16 0#16
     s.bytesReceived.toNat = s.total ∧ s.payloadLength.toNat ≤ s.maxLen ∧ s.rxCrc = 0#16) ∧
    (let s := inFrame 5#16 2#2 1#16 0xC0C1#16
     s.bytesReceived.toNat = s.total ∧ s.crcEnabled = true ∧ s.rxCrc ≠ 0#16) := by decide

theorem witness_UnselectedRows :
    midFrame.phase ≠ .idle ∧ midFrame.phase ≠ .len1 ∧ midFrame.phase ≠ .len2 ∧ idle.phase ≠ .payload ∧
    midFrame.phase ≠ .crc ∧ midFrame.phase ≠ .overrun ∧ midFrame.phase ≠ .drop ∧ midFrame.countTest ≠ .oversize ∧
    midFrame.countTest ≠ .complete ∧ midFrame.unEscaping = false ∧ (escaped midFrame).unEscaping = true := by
  decide

/-- Both forms at their largest `N`, and the empty packet with CRC. -/
theorem witness_LengthRows :
    (let s := sized 32767 atLen1
     s.rxDrop = false ∧ s.bytesReceived = 1#16 ∧ (127#7 : BitVec 7).toNat ≤ s.maxLen ∧ (127#7 : BitVec 7) ≠ 0#7 ∧
      256 * (127#7 : BitVec 7).toNat + (255#8 : Byte).toNat ≤ s.maxLen) ∧
    ((0#7 : BitVec 7).toNat ≤ atLen1.maxLen ∧ atLen1.crcEnabled = true) := by decide

theorem witness_EncoderPicks :
    (127#16 : Word16).toNat < 128 ∧ 128 ≤ (128#16 : Word16).toNat ∧ 128 ≤ (32767#16 : Word16).toNat ∧
    (32767#16 : Word16).toNat ≤ 32767 ∧ 128 ≤ (0xFFFF#16 : Word16).toNat := by decide

theorem witness_CommandRows :
    idle.rxDrop = false ∧ idle.bytesReceived = 0#16 ∧ idle.headerLength = 2#2 ∧
    (inFrame 0#16 3#2 0#16 0xFFFF#16).headerLength = 3#2 := by decide

/-- A full buffer, no buffer, and the last byte of one. -/
theorem witness_Append :
    (sized 0 idle).maxLen ≤ (sized 0 idle).bytesWritten.toNat ∧
    (let s := sized 2 { idle with bytesWritten := 2#16 }
     s.maxLen ≤ s.bytesWritten.toNat) ∧
    (let s := sized 2 { idle with bytesWritten := 1#16 }
     s.bytesWritten.toNat < s.maxLen) := by decide

theorem witness_TxFrame :
    (let s := sized 2 { idle with bytesWritten := 2#16 }
     s.bytesWritten.toNat ≤ s.maxLen) ∧ midFrame.bytesWritten.toNat ≤ midFrame.maxLen := by decide

theorem witness_FrameSize : ([] : List Byte).length ≤ 32767 ∧ (List.replicate 128 (0#8 : Byte)).length ≤ 32767 := by
  decide +kernel

/-- A payload as large as the buffer, from mid-frame and from phase DROP. -/
theorem witness_CorrectFrame :
    (let s := sized 2 midFrame
     s.unEscaping = false ∧ s.headerLength = 2#2 ∧ [0x7E#8, (0x7D#8 : Byte)].length ≤ s.maxLen ∧
      0 < (frame s.crcEnabled 0x7E#8 [0x7E#8, 0x7D#8]).length) ∧
    (dropping.unEscaping = false ∧ dropping.headerLength = 3#2 ∧ ([] : List Byte).length ≤ (sized 0 dropping).maxLen) := by
  decide +kernel

theorem witness_LeadingBoundary :
    idle.unEscaping = false ∧ idle.rxDrop = false ∧ idle.bytesReceived = 0#16 ∧ idle.rxCrc = 0xFFFF#16 ∧
    idle.headerLength = 2#2 ∧ [(0x7E#8 : Byte)].length ≤ (sized 1 idle).maxLen := by decide

theorem witness_BackToBack :
    (let s := sized 1 midFrame
     s.unEscaping = false ∧ s.headerLength = 2#2 ∧ ([] : List Byte).length ≤ s.maxLen ∧
      [(0x42#8 : Byte)].length ≤ s.maxLen) := by decide

theorem witness_SentPayload :
    (let a := sized 2 { idle with bytesWritten := 2#16 }
     let b := sized 2 midFrame
     a.bytesWritten.toNat ≤ a.maxLen ∧ a.bytesWritten.toNat ≤ b.maxLen ∧ a.crcEnabled = b.crcEnabled ∧
      b.unEscaping = false ∧ b.headerLength = 2#2) := by decide

theorem witness_FrameWithoutCrc :
    midFrame.crcEnabled = true ∧ midFrame.unEscaping = false ∧ midFrame.headerLength = 2#2 ∧
    [(0x42#8 : Byte)].length ≤ (sized 1 midFrame).maxLen := by decide

theorem witness_OneChangedByte : (0x03#8 : Byte) ≠ 0x00#8 := by decide

/-- One RX.BYTE for each outcome of the statement: nothing, a packet, code 7, code 6. -/
theorem witness_EventsLeave :
    after (.rxByte 0x33#8) midFrame (·.events) = some [] ∧
    after (.rxByte 0x83#8) (inFrame 4#16 2#2 1#16 0x0083#16) (·.events) = some [.rxPacket 0xA1#8 1#16] ∧
    after (.rxByte 0x82#8) (inFrame 4#16 2#2 1#16 0x0083#16) (·.events) = some [.rxError 7#8] ∧
    after (.rxByte 0x7F#8) (sized 126 atLen1) (·.events) = some [.rxError 6#8] := by decide

/-- A row that is none of the writers goes on, and so do RESET and TX.FRAME. -/
theorem witness_RegistersAreWritten :
    (∃ t, exec (.encByte 0#8) midFrame = .next t) ∧
    isReset (.encByte 0#8) = false ∧ isTxFrame (.encByte 0#8) = false ∧ isAppend (.encByte 0#8) = false ∧
    isReceive (.encByte 0#8) = false ∧ isDecByte (.encByte 0#8) = false ∧ mayAnswer (.encByte 0#8) = false ∧
    mayEmit (.bufAppend 0#8) = false ∧ (∃ t, exec (.bufAppend 0#8) midFrame = .next t) ∧
    (∃ t, exec (.reset true) midFrame = .next t) ∧ (∃ t, exec (.txFrame 0#8) midFrame = .next t) :=
  ⟨next_of_isSome (by decide +kernel), rfl, rfl, rfl, rfl, rfl, rfl, rfl, next_of_isSome (by decide +kernel),
    next_of_isSome (by decide +kernel), next_of_isSome (by decide +kernel)⟩

/-- The decoder's side: a payload byte that leaves the cursors, outside the phases that write the header, and a CRC byte at
COMPLETE, which zeroes both. -/
theorem witness_RegistersAreWritten_decoder :
    (nextOf (exec (.rxPayload 0x33#8) midFrame)).isSome = true ∧ midFrame.phase ≠ .idle ∧ midFrame.phase ≠ .len1 ∧
    midFrame.phase ≠ .len2 ∧
    after (.rxCrc 0x83#8) { inFrame 4#16 2#2 1#16 0x0083#16 with bytesRead := 2#16, bytesWritten := 3#16 }
      (fun t => (t.bytesRead, t.bytesWritten, t.events)) = some (0#16, 0#16, [.rxPacket 0xA1#8 1#16]) := by
  decide +kernel

/-- T32 after its TX.FRAME, at rest in OVERRUN with the count at the total: RX.BYTE never completes there, while the row
RX.COMPLETE alone does, by the model's choice (log 12). -/
theorem test_rxComplete_at_rest :
    (inFrame 4#16 2#2 0#16 0x90BF#16).phase = .overrun ∧ (inFrame 4#16 2#2 0#16 0x90BF#16).countTest = .complete ∧
    after (.rxByte 0x33#8) (inFrame 4#16 2#2 0#16 0x90BF#16) (·.events) = some [] ∧
    after .rxComplete (inFrame 4#16 2#2 0#16 0x90BF#16) (·.events) = some [.rxError 7#8] := by decide +kernel

/-- The payload byte at index 2 goes on, index 1 is another, and a row outside phase PAYLOAD goes on. -/
theorem witness_OnlyTheDecodersIndex :
    (nextOf (exec (.rxPayload 0x33#8) midFrame)).isSome = true ∧ isReset (.rxPayload 0x33#8) = false ∧
    isAppend (.rxPayload 0x33#8) = false ∧ 1 ≠ midFrame.bytesReceived.toNat - midFrame.headerLength.toNat ∧
    (nextOf (exec (.rxLen1 0#8) atLen1)).isSome = true ∧ atLen1.phase ≠ .payload := by decide

/-- T32's state. -/
theorem witness_TxFrameInMidFrame :
    midFrame.bytesWritten.toNat ≤ midFrame.maxLen ∧ midFrame.rxDrop = false ∧ 2 ≤ midFrame.bytesReceived.toNat ∧
    ¬(midFrame.bytesReceived = 2#16 ∧ midFrame.headerLength = 3#2) ∧
    midFrame.headerLength.toNat + crcLength midFrame.crcEnabled ≤ midFrame.bytesReceived.toNat := by decide

/-- A step from a state that meets the invariant, by an instruction and by an action of the environment. -/
theorem witness_EveryStepKeeps :
    SoundState { midFrame with pending := [.word ⟨.rxByte, [0x33#8]⟩] } ∧
    (nextOf (step { midFrame with pending := [.word ⟨.rxByte, [0x33#8]⟩] })).isSome = true ∧
    SoundState { midFrame with pending := [.act .stripReturnCode] } ∧
    (nextOf (step { midFrame with pending := [.act .stripReturnCode] })).isSome = true :=
  ⟨soundState_of_fields (by decide), by decide, soundState_of_fields (by decide), by decide⟩

theorem witness_NoStepFaults : SoundState { midFrame with pending := [.word ⟨.raw8, [0x33#8]⟩] } :=
  soundState_of_fields (by decide)

/-- A row that is not TX.FRAME, and TX.FRAME between frames. -/
theorem witness_DecoderStaysWithin :
    (SoundState midFrame ∧ WithinFrame midFrame ∧ (nextOf (exec (.rxLit 0x33#8) midFrame)).isSome = true ∧
      isTxFrame (.rxLit 0x33#8) = false) ∧
    (SoundState idle ∧ WithinFrame idle ∧ (nextOf (exec (.txFrame 0x33#8) idle)).isSome = true ∧
      idle.bytesReceived.toNat < 2) :=
  ⟨⟨sound_midFrame, within_midFrame, by decide, rfl⟩,
    ⟨soundState_of_fields (by decide), fun h => absurd h (by decide), by decide, by decide⟩⟩

theorem witness_DecodingAnEncoded :
    (Instr.rxUnesc 0x7E#8).wellFormed = true ∧ (Instr.rxUnesc 0x7E#8).selectedBy ⟨true, .idle, .neither⟩ = true ∧
    (Instr.cmdRequest 127#7).wellFormed = true ∧ (Instr.rxCrc 0#8).selectedBy (at' .crc) = true := by decide

theorem witness_EncodingADecodedWord : decode (at' .idle) ⟨.cmd8, [0x87#8]⟩ = .ok (.cmdRequest 7#7) := by decide

theorem witness_StepRuns :
    ({ midFrame with pending := [.word ⟨.raw8, [0x33#8]⟩] } : State).pending = .word ⟨.raw8, [0x33#8]⟩ :: [] ∧
    decode midFrame.selector ⟨.raw8, [0x33#8]⟩ = .ok (.rxLit 0x33#8) ∧
    decode midFrame.selector ⟨.esc16, [0x7D#8, 0x7E#8]⟩ = .rejected .notAnEscapedPair ∧
    ({ midFrame with pending := [.act .readU8] } : State).pending = .act .readU8 :: [] ∧ midFrame.pending = [] := by
  decide

theorem witness_PlacedTableWord :
    decodeTableWord 8 0xFF = some (.lenLong 127#7 0#8) ∧ decodeTableWord 16 0x7D5D = some .escPair7D := by decide

/-- One byte too many, and exactly full. -/
theorem witness_Serialize :
    (let s := sized 3 { idle with bytesWritten := 1#16 }
     s.maxLen < s.bytesWritten.toNat + [1#8, 2#8, (3#8 : Byte)].length ∧
      s.bytesWritten.toNat + [1#8, (2#8 : Byte)].length ≤ s.maxLen) := by decide

/-- A packet of `n` bytes after COMPLETE, `n` up to 4, its bytes 41, 42, 43 and a terminator, the cursor at its start. -/
def packet (n : Word16) : State :=
  { inFrame 0#16 2#2 n 0xFFFF#16 with payload := [(0, 0x41#8), (1, 0x42#8), (2, 0x43#8), (3, 0#8)] }

/-- Each read ending exactly at the end of the packet, and one byte past it. -/
theorem witness_CursorReads :
    (packet 4#16).bytesRead.toNat + 4 ≤ min (packet 4#16).payloadLength.toNat (packet 4#16).maxLen ∧
    min (packet 3#16).payloadLength.toNat (packet 3#16).maxLen < (packet 3#16).bytesRead.toNat + 4 ∧
    (packet 2#16).bytesRead.toNat + 2 ≤ min (packet 2#16).payloadLength.toNat (packet 2#16).maxLen ∧
    min (packet 1#16).payloadLength.toNat (packet 1#16).maxLen < (packet 1#16).bytesRead.toNat + 2 ∧
    (packet 1#16).bytesRead.toNat + 1 ≤ min (packet 1#16).payloadLength.toNat (packet 1#16).maxLen ∧
    min (packet 0#16).payloadLength.toNat (packet 0#16).maxLen < (packet 0#16).bytesRead.toNat + 1 ∧
    (packet 1#16).payloadLength ≠ 0#16 ∧ (packet 0#16).payloadLength = 0#16 := by decide

/-- A string whose terminator is the packet's last byte, and a packet that ends before the terminator. -/
theorem witness_CursorReads_string :
    (packet 4#16).bytesRead.toNat + 3 < min (packet 4#16).payloadLength.toNat (packet 4#16).maxLen ∧
    (packet 4#16).payloadByte ((packet 4#16).bytesRead.toNat + 3) = 0#8 ∧
    (∀ k, k < 3 → (packet 4#16).payloadByte ((packet 4#16).bytesRead.toNat + k) ≠ 0#8) ∧
    (∀ k, k < min (packet 3#16).payloadLength.toNat (packet 3#16).maxLen → (packet 3#16).payloadByte k ≠ 0#8) := by
  decide

/-- 44_system_ops.md R207: four bytes low byte first, an array, and a string past whose terminator the cursor moves. -/
theorem test_environment_wide_reads :
    (nextOf (envAct .readF32 (packet 4#16))).map (fun t => (t.bytesRead, t.results)) =
      some (4#16, [.bytes [0x41#8, 0x42#8, 0x43#8, 0#8]]) ∧
    (nextOf (envAct (.readArray 3) (packet 4#16))).map (fun t => (t.bytesRead, t.results)) =
      some (3#16, [.bytes [0x41#8, 0x42#8, 0x43#8]]) ∧
    (nextOf (envAct .readString (packet 4#16))).map (fun t => (t.bytesRead, t.results)) =
      some (4#16, [.bytes [0x41#8, 0x42#8, 0x43#8]]) ∧
    (nextOf (envAct .readString (packet 3#16))).isNone = true := by decide +kernel

end Sys2Proof.Tests
end

section
/-! PROOFS. The length field and the logical-byte classes (30_encoding.md R84 to R87 and R95). -/

namespace Sys2Proof.Machine

/-! ### The length field read back from its bytes (R84, R85) -/

@[simp] theorem classifyLength_byteWithBit7Clear (n : BitVec 7) :
    classifyLength [byteWithBit7Clear n] = .ok (.lenShort n) := by
  simp [classifyLength, bit7_byteWithBit7Clear, byteWithBit7Clear_low]

@[simp] theorem classifyLength_byteWithBit7Set (nHi : BitVec 7) (nLo : Byte) :
    classifyLength [byteWithBit7Set nHi, nLo] = .ok (.lenLong nHi nLo) := by
  simp [classifyLength, bit7_byteWithBit7Set, byteWithBit7Set_low]

/-! ### The length bytes the encoder sends (R87) -/

theorem lo8_eq_ofNat (v : Word16) : lo8 v = BitVec.ofNat 8 (v.toNat % 256) :=
  BitVec.eq_of_toNat_eq (by simp [lo8_toNat])

theorem lo8_eq_byteWithBit7Clear {v : Word16} (h : v.toNat < 128) :
    lo8 v = byteWithBit7Clear (BitVec.ofNat 7 v.toNat) := by
  apply BitVec.eq_of_toNat_eq
  rw [lo8_toNat, byteWithBit7Clear_toNat, BitVec.toNat_ofNat]
  omega

theorem hi8_eq_byteWithBit7Clear {v : Word16} (h : v.toNat ≤ 32767) :
    hi8 v = byteWithBit7Clear (BitVec.ofNat 7 (v.toNat / 256)) := by
  apply BitVec.eq_of_toNat_eq
  rw [hi8_toNat, byteWithBit7Clear_toNat, BitVec.toNat_ofNat]
  omega

theorem lengthBytes_short {l : Word16} (h : l.toNat < 128) : lengthBytes l = [lo8 l] := if_pos h

theorem lengthBytes_long {l : Word16} (h : 128 ≤ l.toNat) :
    lengthBytes l = [0x80#8 ||| hi8 l, lo8 l] := if_neg (by omega)

/-- Up to the 15 bits of the field, flagging the high byte is setting bit 7 over seven bits of the length. -/
theorem lengthBytes_long_of_le {l : Word16} (h : 128 ≤ l.toNat) (h15 : l.toNat ≤ 32767) :
    lengthBytes l =
      [byteWithBit7Set (BitVec.ofNat 7 (l.toNat / 256)), BitVec.ofNat 8 (l.toNat % 256)] := by
  rw [lengthBytes_long h, hi8_eq_byteWithBit7Clear h15, lo8_eq_ofNat]
  rfl

/-- Settles O25: the sent bytes are the short or the long form of the length, and each form reads back as its
operands. -/
theorem encoderPicksTheLengthForm : Obligations.EncoderPicksTheLengthForm := by
  refine fun l => ⟨fun h => ⟨lengthBytes_short h, ?_⟩, lengthBytes_long, fun h h15 => ?_⟩
  · rw [lengthBytes_short h, lo8_eq_byteWithBit7Clear h, classifyLength_byteWithBit7Clear]
  · rw [lengthBytes_long_of_le h h15, classifyLength_byteWithBit7Set]

/-! ### The length assembled from its bytes (R84, R86) -/

/-- Masking off the flag leaves the seven bits of the high part. -/
theorem byteWithBit7Set_and_7F (n : BitVec 7) : byteWithBit7Set n &&& 0x7F#8 = byteWithBit7Clear n := by
  revert n; decide +kernel

/-- "Add": the high part leaves room for the second byte. -/
theorem longLength_toNat (nHi : BitVec 7) (nLo : Byte) :
    (firstLengthOf (byteWithBit7Set nHi) + nLo.setWidth 16).toNat = 256 * nHi.toNat + nLo.toNat := by
  rw [addLength_toNat nLo (firstLengthOf_le _), firstLengthOf_byteWithBit7Set]

/-- "Add" and "or" agree: both are the number with the seven bits high and the second byte low. -/
theorem longLength_eq_join16 (nHi : BitVec 7) (nLo : Byte) :
    firstLengthOf (byteWithBit7Set nHi) + nLo.setWidth 16 = join16 (byteWithBit7Set nHi &&& 0x7F#8) nLo := by
  apply BitVec.eq_of_toNat_eq
  rw [longLength_toNat, join16_toNat, byteWithBit7Set_and_7F, byteWithBit7Clear_toNat]

theorem firstLengthOf_byteWithBit7Clear (n : BitVec 7) : (firstLengthOf (byteWithBit7Clear n)).toNat = n.toNat := by
  rw [firstLengthOf_short (bit7_byteWithBit7Clear n), BitVec.toNat_setWidth, byteWithBit7Clear_toNat]
  omega

/-- Settles O23: the two assemblies of the long form agree as numbers; the short form's byte is the length. -/
theorem lengthFieldIsAssembledFromItsBytes : Obligations.LengthFieldIsAssembledFromItsBytes :=
  ⟨fun nHi nLo => ⟨longLength_eq_join16 nHi nLo, longLength_toNat nHi nLo⟩,
    fun n => ⟨headerLengthOf_short (bit7_byteWithBit7Clear n), firstLengthOf_byteWithBit7Clear n⟩⟩

/-! ### The classes of a logical byte (R95) -/

theorem decode_log8 (sel : Selector) (b : Byte) : decode sel ⟨.log8, [b]⟩ = .ok (classifyLogical b) := rfl

theorem isSentinel_eq_false {b : Byte} (h7E : b ≠ 0x7E#8) (h7D : b ≠ 0x7D#8) : isSentinel b = false := by
  simp [isSentinel, h7E, h7D]

theorem exec_encLit {b : Byte} (h7E : b ≠ 0x7E#8) (h7D : b ≠ 0x7D#8) (s : State) :
    exec (.encLit b) s = .next (emitRaw [b] s) := by
  change whenSelected (!isSentinel b) "ENC.LIT" (.next (emitRaw [b] s)) = _
  rw [isSentinel_eq_false h7E h7D, Bool.not_false, whenSelected_true]

/-- Settles O2: the class is read off the byte, the two escape rows emit their fixed pairs, and ENC.LIT is selected
by every byte that is no sentinel. -/
theorem logicalClassesEmitTheirRawBytes : Obligations.LogicalClassesEmitTheirRawBytes :=
  ⟨decode_log8, fun _ => rfl, fun _ => rfl, fun _ s h7E h7D => exec_encLit h7E h7D s⟩

end Sys2Proof.Machine
end

section
/-! PROOFS. The escape encoder's byte function (40_frame_codec.md R110). -/

namespace Sys2Proof.Machine

theorem exec_encByte (b : Byte) (s : State) : exec (.encByte b) s = .next (emitRaw (encodeByte b) s) := rfl

/-- R110's own case distinction: the two sentinels are escaped, every other byte stands for itself. -/
theorem encodeByte_eq_ite (b : Byte) :
    encodeByte b = if b = 0x7E#8 ∨ b = 0x7D#8 then [0x7D#8, b ^^^ 0x20#8] else [b] := by
  obtain ⟨hsentinel, hbytes⟩ | ⟨h7E, h7D, hbytes⟩ := encodeByte_cases b
  · rw [hbytes, if_pos hsentinel]
  · rw [hbytes, if_neg (not_or.mpr ⟨h7E, h7D⟩)]

/-- Settles O1: ENC.BYTE appends the escaped form of its byte to the output, and that form is R110's. -/
theorem encByteEmitsTheEscapedForm : Obligations.EncByteEmitsTheEscapedForm := by
  intro b s
  rw [exec_encByte, encodeByte_eq_ite]
  rfl

end Sys2Proof.Machine
end

section
/-! PROOFS. The packet encoder: TX.FRAME as one run of logical bytes between the boundary and the CRC bytes
(41_packet_encoder.md R130). -/

namespace Sys2Proof.Machine

theorem exec_txFrame {s : State} (hfit : s.bytesWritten.toNat ≤ s.maxLen) (cmd : Byte) :
    exec (.txFrame cmd) s = .next (endFrame (sendCrc (sendBody (startFrame cmd s)))) := if_pos hfit

theorem sendAll_append (a b : List Byte) (s : State) : sendAll (a ++ b) s = sendAll b (sendAll a s) :=
  List.foldl_append

/-- Steps 4 to 6 send one sequence: command, length, payload. -/
theorem sendBody_eq_sendAll (s : State) :
    sendBody s = sendAll (s.packetCmd :: (lengthBytes s.payloadLength ++ s.payloadToSend)) s :=
  (sendAll_append (lengthBytes s.payloadLength) s.payloadToSend (sendLogical s s.packetCmd)).symm

/-- The CRC bytes are emitted, low first, and not folded (R136). -/
theorem sendCrc_eq (s : State) :
    sendCrc s = { s with
      emitted := s.emitted ++ encodeBytes (if s.crcEnabled = true then [lo8 s.txCrc, hi8 s.txCrc] else []) } := by
  unfold sendCrc
  split
  · simp [emitRaw]
  · simp

/-- Step 1 captures `bytes_written`, so step 6 loads the indices below it. -/
theorem payloadToSend_startFrame (cmd : Byte) (s : State) :
    (startFrame cmd s).payloadToSend = (List.range s.bytesWritten.toNat).map s.payloadByte := by
  have hbyte (i : Nat) : (startFrame cmd s).payloadByte (0 + i) = s.payloadByte i := by
    rw [Nat.zero_add, State.payloadByte_congr (startFrame_payload cmd s) (startFrame_resetCount cmd s)]
  simp only [State.payloadToSend, State.payloadSlice, startFrame_payloadLength, hbyte]

/-- Settles O29: after the boundary the body is one run of sent bytes, whose CRC is then in `tx_crc` and is emitted. -/
theorem txFrameEmitsTheWholeFrame : Obligations.TxFrameEmitsTheWholeFrame := by
  intro cmd s hfit
  rw [exec_txFrame hfit, sendBody_eq_sendAll, payloadToSend_startFrame, sendAll_eq, sendCrc_eq]
  simp [startFrame, endFrame, emitRaw, crc16]

end Sys2Proof.Machine
end

section
/-! PROOFS. The packet decoder: the escape byte among the raw classes (42_packet_decoder.md R154). -/

namespace Sys2Proof.Machine

theorem exec_rxEsc (s : State) : exec .rxEsc s = .next { s with unEscaping := true } := rfl

theorem exec_rxByte (b : Byte) (s : State) : exec (.rxByte b) s = receiveRaw b s := rfl

/-- A raw 7D is no boundary and no logical byte: of all that a raw byte can do, only the escape remains. -/
theorem receiveRaw_7D (s : State) : receiveRaw 0x7D#8 s = .next { s with unEscaping := true } := by
  obtain ⟨hboundary, -⟩ | ⟨-, hescape⟩ | ⟨h7D, -⟩ | ⟨-, h7D, -⟩ := receiveRaw_cases 0x7D#8 s
  · exact absurd hboundary (by decide)
  · exact hescape
  · exact absurd rfl h7D
  · exact absurd rfl h7D

/-- Settles O6: the row sets the flag by definition, and RX.BYTE of 7D takes the escape case of the raw bytes. -/
theorem escapeByteOnlySetsTheFlag : Obligations.EscapeByteOnlySetsTheFlag :=
  fun s => ⟨exec_rxEsc s, (exec_rxByte 0x7D#8 s).trans (receiveRaw_7D s)⟩

end Sys2Proof.Machine
end

section
/-! PROOFS. The payload buffer's append at the write cursor (44_system_ops.md R202). -/

namespace Sys2Proof.Machine

theorem exec_bufAppend (b : Byte) (s : State) : exec (.bufAppend b) s = .next (appendByte b s) := rfl

/-- The buffer is smaller than the 16 bits of the cursor, so a cursor within it does not wrap. -/
theorem bytesWritten_add_one_toNat {s : State} (h : s.bytesWritten.toNat < s.maxLen) :
    (s.bytesWritten + 1#16).toNat = s.bytesWritten.toNat + 1 := by
  have hmax : s.maxLen < 32768 := s.cfg.maxPayloadLength.isLt
  rw [BitVec.toNat_add, BitVec.toNat_ofNat]
  omega

/-- Settles O28: the two cases of an append exclude each other; with room, the buffer becomes one write at the cursor,
so the memory's own laws say what each index reads. -/
theorem appendStoresAtTheWriteCursor : Obligations.AppendStoresAtTheWriteCursor := by
  intro b s
  rw [exec_bufAppend]
  obtain ⟨hfull, happend⟩ | ⟨hroom, happend⟩ := appendByte_cases b s
  · exact ⟨fun _ => congrArg _ happend, fun hroom => absurd hroom (not_lt.mpr hfull)⟩
  · refine ⟨fun hfull => absurd hroom (not_lt.mpr hfull), fun _ => ⟨_, congrArg _ happend, rfl, ?_, ?_, ?_⟩⟩
    · exact bytesWritten_add_one_toNat hroom
    · exact State.payloadByte_written rfl
    · exact fun a ha => State.payloadByte_other rfl rfl ha

end Sys2Proof.Machine
end

section
/-! PROOFS. The decoder's rows said through the shared operations: every row of a phase, of a header position or of a raw class is
one logical byte or one raw byte, where the state selects the row. -/

namespace Sys2Proof.Machine

/-! ### Selection -/

theorem whenSelected_congr {c : Bool} {m : String} {a b : Host.Outcome State Fault Refusal}
    (h : c = true → a = b) : whenSelected c m a = whenSelected c m b := by
  cases c
  · rfl
  · exact h rfl

theorem whenSelected_of {c : Bool} (h : c = true) (m : String) (o : Host.Outcome State Fault Refusal) :
    whenSelected c m o = o := by
  rw [h, whenSelected_true]

theorem whenSelected_of_not {c : Bool} (h : c = false) (m : String) (o : Host.Outcome State Fault Refusal) :
    whenSelected c m o = .refused (.rowNotSelected m) := by
  rw [h, whenSelected_false]

theorem unEscaping_eta {s : State} {f : Bool} (h : s.unEscaping = f) : { s with unEscaping := f } = s := by
  rw [← h]

/-! ### A logical byte as one update before the count (R150, steps 5 and 6) -/

/-- What a logical byte does before the count: it is folded, then acted on by its phase. A dropped byte does nothing. -/
def updateByPhase (v : Byte) (s : State) : State :=
  match s.phase with
  | .drop => s
  | .idle => takeCommand v (foldRxCrc v s)
  | .len1 => takeFirstLength v (foldRxCrc v s)
  | .len2 => takeSecondLength v (foldRxCrc v s)
  | .payload => storePayload s.payloadIndex v (foldRxCrc v s)
  | .crc => foldRxCrc v s
  | .overrun => foldRxCrc v s

section
variable {s : State}

theorem updateByPhase_idle (h : s.phase = .idle) (v : Byte) :
    updateByPhase v s = takeCommand v (foldRxCrc v s) := by simp only [updateByPhase, h]

theorem updateByPhase_len1 (h : s.phase = .len1) (v : Byte) :
    updateByPhase v s = takeFirstLength v (foldRxCrc v s) := by simp only [updateByPhase, h]

theorem updateByPhase_len2 (h : s.phase = .len2) (v : Byte) :
    updateByPhase v s = takeSecondLength v (foldRxCrc v s) := by simp only [updateByPhase, h]

theorem updateByPhase_payload (h : s.phase = .payload) (v : Byte) :
    updateByPhase v s = storePayload s.payloadIndex v (foldRxCrc v s) := by simp only [updateByPhase, h]

theorem updateByPhase_crc (h : s.phase = .crc) (v : Byte) : updateByPhase v s = foldRxCrc v s := by
  simp only [updateByPhase, h]

theorem updateByPhase_overrun (h : s.phase = .overrun) (v : Byte) : updateByPhase v s = foldRxCrc v s := by
  simp only [updateByPhase, h]

end

/-- The update of a byte's phase writes the frame's header, its CRC and the buffer; the rest waits for steps 7 to 9. -/
theorem updateByPhase_eq (v : Byte) (s : State) :
    updateByPhase v s =
      { s with
        packetCmd := (updateByPhase v s).packetCmd
        headerLength := (updateByPhase v s).headerLength
        payloadLength := (updateByPhase v s).payloadLength
        rxCrc := (updateByPhase v s).rxCrc
        payload := (updateByPhase v s).payload } := by
  unfold updateByPhase
  split <;> rfl

@[simp] theorem updateByPhase_bytesReceived (v : Byte) (s : State) :
    (updateByPhase v s).bytesReceived = s.bytesReceived := by rw [updateByPhase_eq]
@[simp] theorem updateByPhase_unEscaping (v : Byte) (s : State) :
    (updateByPhase v s).unEscaping = s.unEscaping := by rw [updateByPhase_eq]
@[simp] theorem updateByPhase_rxDrop (v : Byte) (s : State) :
    (updateByPhase v s).rxDrop = s.rxDrop := by rw [updateByPhase_eq]
@[simp] theorem updateByPhase_bytesWritten (v : Byte) (s : State) :
    (updateByPhase v s).bytesWritten = s.bytesWritten := by rw [updateByPhase_eq]
@[simp] theorem updateByPhase_bytesRead (v : Byte) (s : State) :
    (updateByPhase v s).bytesRead = s.bytesRead := by rw [updateByPhase_eq]
@[simp] theorem updateByPhase_crcEnabled (v : Byte) (s : State) :
    (updateByPhase v s).crcEnabled = s.crcEnabled := by rw [updateByPhase_eq]
@[simp] theorem updateByPhase_events (v : Byte) (s : State) :
    (updateByPhase v s).events = s.events := by rw [updateByPhase_eq]
@[simp] theorem updateByPhase_maxLen (v : Byte) (s : State) :
    (updateByPhase v s).maxLen = s.maxLen := by rw [updateByPhase_eq]; rfl

theorem updateByPhase_rxCrc {s : State} (h : s.phase ≠ .drop) (v : Byte) :
    (updateByPhase v s).rxCrc = crc16Update s.rxCrc v := by
  unfold updateByPhase
  split
  · exact absurd ‹_› h
  all_goals rfl

/-- Steps 4 to 9 of R150, read by the phase. -/
theorem acceptLogical_byPhase (v : Byte) (s : State) :
    acceptLogical v s =
      match s.phase with
      | .drop => .next s
      | .payload => storeLogical v s
      | .idle | .len1 | .len2 | .crc | .overrun => .next (endByte (updateByPhase v s)) := by
  obtain ⟨hp, e⟩ | ⟨hp, e⟩ | ⟨hp, e⟩ | ⟨hp, e⟩ | ⟨hp, e⟩ | ⟨hp | hp, e⟩ := acceptLogical_cases v s <;>
    simp only [e, updateByPhase, hp]

theorem storeLogical_payload {s : State} (hp : s.phase = .payload) (hi : s.payloadIndex < s.maxLen) (v : Byte) :
    storeLogical v s = .next (endByte (updateByPhase v s)) := by
  rw [storeLogical, if_pos hi, updateByPhase_payload hp]

theorem acceptLogical_drop {s : State} (h : s.phase = .drop) (v : Byte) : acceptLogical v s = .next s := by
  simp only [acceptLogical_byPhase, h]

/-- A byte that is not dropped and, in phase PAYLOAD, has its place in the buffer goes on. -/
theorem acceptLogical_update {s : State} (hd : s.phase ≠ .drop) (hi : s.phase = .payload → s.payloadIndex < s.maxLen)
    (v : Byte) : acceptLogical v s = .next (endByte (updateByPhase v s)) := by
  rw [acceptLogical_byPhase]
  split
  · exact absurd ‹_› hd
  · exact storeLogical_payload ‹_› (hi ‹_›) v
  all_goals rfl

/-- The inversion of a logical byte: it is dropped, or it is one update and then steps 7 to 9. -/
theorem acceptLogical_next {v : Byte} {s t : State} (e : acceptLogical v s = .next t) :
    (s.phase = .drop ∧ t = s) ∨ (s.phase ≠ .drop ∧ t = endByte (updateByPhase v s)) := by
  by_cases hd : s.phase = .drop
  · rw [acceptLogical_drop hd] at e
    cases e
    exact .inl ⟨hd, rfl⟩
  · have hi : s.phase = .payload → s.payloadIndex < s.maxLen := by
      intro hp
      simp only [acceptLogical_byPhase, hp, storeLogical] at e
      by_contra hi
      rw [if_neg hi] at e
      cases e
    rw [acceptLogical_update hd hi] at e
    cases e
    exact .inr ⟨hd, rfl⟩

/-! ### The rows of a phase (R152) -/

/-- The name a phase's row is refused under (log 8). -/
def phaseMnemonic : Phase → String
  | .drop => "RX.DROP"
  | .idle => "RX.CMD"
  | .len1 => "RX.LEN1"
  | .len2 => "RX.LEN2"
  | .payload => "RX.PAYLOAD"
  | .crc => "RX.CRC"
  | .overrun => "RX.OVERRUN"

/-- The seven rows of the phases are one: the logical byte, selected by the phase. -/
theorem exec_classifyPhase (p : Phase) (v : Byte) (s : State) :
    exec (classifyPhase p v) s = whenSelected (s.phase == p) (phaseMnemonic p) (acceptLogical v s) := by
  cases p <;> refine whenSelected_congr fun h => ?_ <;>
    simp only [acceptLogical_byPhase, updateByPhase, eq_of_beq h]

theorem exec_classifyPhase_self (v : Byte) (s : State) : exec (classifyPhase s.phase v) s = acceptLogical v s := by
  rw [exec_classifyPhase, whenSelected_of (beq_self_eq_true _)]

theorem exec_classifyPhase_of_ne {s : State} {p : Phase} (h : s.phase ≠ p) (v : Byte) :
    exec (classifyPhase p v) s = .refused (.rowNotSelected (phaseMnemonic p)) := by
  rw [exec_classifyPhase, whenSelected_of_not (beq_eq_false_iff_ne.2 h)]

/-! ### The raw rows (R94) -/

/-- A raw byte after an escape is a logical byte, whatever it is but another escape (R155). -/
theorem receiveRaw_unescaped {b : Byte} {s : State} (hf : s.unEscaping = true) (hb : b ≠ 0x7D#8) :
    receiveRaw b s = acceptLogical (b ^^^ 0x20#8) { s with unEscaping := false } := by
  obtain ⟨-, hf', -⟩ | ⟨hb', -⟩ | ⟨-, -, e⟩ | ⟨-, -, hf', -⟩ := receiveRaw_cases b s
  · exact absurd (hf.symm.trans hf') (by decide)
  · exact absurd hb' hb
  · exact e
  · exact absurd (hf.symm.trans hf') (by decide)

/-- With no escape pending a raw byte that is no sentinel is the logical byte (R155). -/
theorem receiveRaw_literal {b : Byte} {s : State} (hf : s.unEscaping = false) (h7E : b ≠ 0x7E#8) (h7D : b ≠ 0x7D#8) :
    receiveRaw b s = acceptLogical b s := by
  obtain ⟨hb, -⟩ | ⟨hb, -⟩ | ⟨-, hf', -⟩ | ⟨-, -, -, e⟩ := receiveRaw_cases b s
  · exact absurd hb h7E
  · exact absurd hb h7D
  · exact absurd (hf.symm.trans hf') (by decide)
  · rw [e, unEscaping_eta hf]

theorem receiveRaw_boundary {s : State} (hf : s.unEscaping = false) :
    receiveRaw 0x7E#8 s = .next (boundaryReset s) := if_pos ⟨rfl, hf⟩

theorem exec_rxFlag (s : State) : exec .rxFlag s = whenSelected (!s.unEscaping) "RX.FLAG" (.next (boundaryReset s)) :=
  rfl

theorem exec_rxUnesc (b : Byte) (s : State) :
    exec (.rxUnesc b) s = whenSelected (s.unEscaping && b != 0x7D#8) "RX.UNESC" (receiveRaw b s) := by
  refine whenSelected_congr fun h => ?_
  obtain ⟨hf, hb⟩ := Bool.and_eq_true_iff.1 h
  exact (receiveRaw_unescaped hf (by simpa using hb)).symm

theorem exec_rxLit (b : Byte) (s : State) :
    exec (.rxLit b) s = whenSelected (!s.unEscaping && !isSentinel b) "RX.LIT" (receiveRaw b s) := by
  refine whenSelected_congr fun h => ?_
  simp only [isSentinel, Bool.and_eq_true, Bool.not_eq_true', Bool.or_eq_false_iff, beq_eq_false_iff_ne] at h
  obtain ⟨hf, h7E, h7D⟩ := h
  exact (receiveRaw_literal hf h7E h7D).symm

/-- An escaped pair is its logical byte, whether or not an escape was pending (R81, D21). -/
theorem receiveRaw_pair {b v : Byte} (hb : b ≠ 0x7D#8) (hv : b ^^^ 0x20#8 = v) (s : State) :
    andThen (receiveRaw 0x7D#8 s) (receiveRaw b) = acceptLogical v { s with unEscaping := false } := by
  rw [receiveRaw_7D, andThen_next, receiveRaw_unescaped rfl hb, hv]

theorem exec_escPair7E (s : State) : exec .escPair7E s = acceptLogical 0x7E#8 { s with unEscaping := false } :=
  receiveRaw_pair (b := 0x5E#8) (by decide) (by decide) s

theorem exec_escPair7D (s : State) : exec .escPair7D s = acceptLogical 0x7D#8 { s with unEscaping := false } :=
  receiveRaw_pair (b := 0x5D#8) (by decide) (by decide) s

/-! ### The rows of the header positions and of the tests after the count -/

theorem exec_lenShort (n : BitVec 7) (s : State) :
    exec (.lenShort n) s =
      whenSelected (s.phase == .len1) "LEN.SHORT" (acceptLogical (byteWithBit7Clear n) s) := rfl

theorem exec_lenLong (nHi : BitVec 7) (nLo : Byte) (s : State) :
    exec (.lenLong nHi nLo) s =
      andThen (whenSelected (s.phase == .len1) "LEN.LONG" (acceptLogical (byteWithBit7Set nHi) s))
        (acceptLogical nLo) := rfl

theorem exec_rxOversize (s : State) :
    exec .rxOversize s = whenSelected (s.countTest == .oversize) "RX.OVERSIZE" (.next (rejectOversize s)) := rfl

theorem exec_rxComplete (s : State) :
    exec .rxComplete s = whenSelected (s.countTest == .complete) "RX.COMPLETE" (.next (completeFrame s)) := rfl

end Sys2Proof.Machine
end

section
/-! PROOFS. The invariant of 10_state.md R37: every row and every action of the environment that goes on keeps it, none faults,
and a row that is selected in its position is not refused. -/

namespace Sys2Proof.Machine

/-! ### The four cases of a step -/

variable {s : State}

theorem step_of_none (hp : s.pending = []) : step s = .next s := by simp only [step, takeInput, hp]

theorem step_of_act {a : EnvAction} {rest : List Input} (hp : s.pending = .act a :: rest) :
    step s = envAct a { s with pending := rest } := by simp only [step, takeInput, hp]

theorem step_of_decoded {w : CodeWord} {rest : List Input} {i : Instr} (hp : s.pending = .word w :: rest)
    (hd : decode s.selector w = .ok i) : step s = exec i { s with pending := rest } := by
  simp only [step, takeInput, hp, hd]

theorem step_of_rejected {w : CodeWord} {rest : List Input} {r : DecodeReject} (hp : s.pending = .word w :: rest)
    (hd : decode s.selector w = .rejected r) : step s = .refused (.undecodable r) := by
  simp only [step, takeInput, hp, hd]

end Sys2Proof.Machine

namespace Sys2Proof.Safety

open Sys2Proof.Machine

/-- What an outcome owes the invariant: a next state meets it, there is no fault, and a refusal only without `selected`. -/
def KeepsSound (selected : Prop) : Host.Outcome State Fault Refusal → Prop
  | .next t => SoundState t
  | .fault _ => False
  | .refused _ => ¬selected

section
variable {selected : Prop} {o : Host.Outcome State Fault Refusal}

theorem KeepsSound.sound {t : State} (h : KeepsSound selected o) (e : o = .next t) : SoundState t := by
  subst e; exact h

theorem KeepsSound.noFault (h : KeepsSound selected o) : NoFault o := by
  rintro f rfl; exact h

theorem KeepsSound.goesOn (h : KeepsSound selected o) (hs : selected) : GoesOn o SoundState := by
  cases o with
  | next t => exact ⟨t, rfl, h⟩
  | fault r => exact h.elim
  | refused r => exact absurd hs h

theorem KeepsSound.of_goesOn (h : GoesOn o SoundState) : KeepsSound selected o := by
  obtain ⟨t, rfl, ht⟩ := h
  exact ht

theorem KeepsSound.imp_false (h : KeepsSound selected o) : KeepsSound False o := by
  cases o with
  | next t => exact h
  | fault r => exact h
  | refused r => exact not_false

theorem KeepsSound.whenSelected {c : Bool} (hc : selected → c = true) (m : String) (h : KeepsSound selected o) :
    KeepsSound selected (whenSelected c m o) := by
  cases c with
  | true => exact h
  | false => exact fun hs => absurd (hc hs) (by decide)

theorem KeepsSound.andThen {f : State → Host.Outcome State Fault Refusal} (h : KeepsSound selected o)
    (hf : ∀ t, SoundState t → KeepsSound selected (f t)) : KeepsSound selected (andThen o f) := by
  cases o with
  | next t => exact hf t h
  | fault r => exact h
  | refused r => exact h

end

variable {s : State}

theorem SoundState.withFlag (h : SoundState s) (f : Bool) : SoundState { s with unEscaping := f } :=
  h.congr rfl rfl rfl rfl rfl rfl rfl rfl

/-- RESET empties the buffer and zeroes every counter, so each bound holds of zero. -/
theorem execReset_inv (c : Bool) {t : State} (e : execReset c s = .next t) : SoundState t := by
  cases e
  exact .atStart (.inl rfl) (Nat.zero_le _) (Nat.zero_le _) rfl rfl List.Pairwise.nil (fun _ hc => nomatch hc)

/-- TX.FRAME leaves a length of zero, and of the decoder's other registers nothing moves. -/
theorem exec_txFrame_goesOn (cmd : Byte) (h : SoundState s) : GoesOn (exec (.txFrame cmd) s) SoundState :=
  ⟨_, txFrameEmitsTheWholeFrame cmd s h.bytesWritten,
    ⟨h.headerLength, Nat.zero_le _, Nat.zero_le _, h.dropIsIdle, h.idleCrc, fun _ => Nat.zero_le _,
      fun _ _ => Nat.zero_le _, h.bufferOrdered, h.bufferInRange⟩⟩

/-- All 36 rows: the decoder's rows are a logical or a raw byte, the others leave its registers alone. -/
theorem exec_keepsSound (i : Instr) (h : SoundState s) :
    KeepsSound (i.wellFormed = true ∧ i.selectedBy s.selector = true ∧ InPosition s i) (exec i s) := by
  have logical : ∀ {selected : Prop} (v : Byte) {u : State}, SoundState u → KeepsSound selected (acceptLogical v u) :=
    fun v _ hu => .of_goesOn (acceptLogical_goesOn v hu)
  have raw : ∀ {selected : Prop} (b : Byte), KeepsSound selected (receiveRaw b s) :=
    fun b => .of_goesOn (receiveRaw_goesOn b h)
  have phaseRow : ∀ {selected : Prop} (p : Phase) (v : Byte), (selected → (s.phase == p) = true) →
      KeepsSound selected (exec (classifyPhase p v) s) :=
    fun p v hs => exec_classifyPhase p v s ▸ .whenSelected hs _ (logical v h)
  cases i with
  | rxFlag => exact .whenSelected (fun hs => hs.2.1) _ (boundaryReset_inv h)
  | rxEsc => exact h.withFlag true
  | rxUnesc b =>
    rw [exec_rxUnesc]
    exact .whenSelected (fun hs => Bool.and_eq_true_iff.2 ⟨hs.2.1, hs.1⟩) _ (raw b)
  | rxLit b =>
    rw [exec_rxLit]
    exact .whenSelected (fun hs => Bool.and_eq_true_iff.2 ⟨hs.2.1, hs.1⟩) _ (raw b)
  | encEsc7E | encEsc7D | encByte | decByte | crc16Update => exact h.congr rfl rfl rfl rfl rfl rfl rfl rfl
  | encLit b => exact .whenSelected (fun hs => hs.1) _ (h.congr rfl rfl rfl rfl rfl rfl rfl rfl)
  | escPair7E => rw [exec_escPair7E]; exact logical _ (h.withFlag false)
  | escPair7D => rw [exec_escPair7D]; exact logical _ (h.withFlag false)
  | lenShort n => exact .whenSelected (fun hs => beq_iff_eq.2 hs.2.2) _ (logical _ h)
  | lenLong nHi nLo =>
    exact .andThen (.whenSelected (fun hs => beq_iff_eq.2 hs.2.2) _ (logical _ h)) fun _ ht => logical _ ht
  | cmdRequest | cmdReply | cmdStd80 | cmdStd81 | cmdStd82 | cmdStd83 | cmdStd84 | cmdStd85 | cmdStd86 =>
    exact .whenSelected (fun hs => beq_iff_eq.2 hs.2.2) _ (logical _ h)
  | rxCmd v => exact phaseRow .idle v fun hs => hs.2.1
  | rxLen1 v => exact phaseRow .len1 v fun hs => hs.2.1
  | rxLen2 v => exact phaseRow .len2 v fun hs => hs.2.1
  | rxPayload v => exact phaseRow .payload v fun hs => hs.2.1
  | rxCrc v => exact phaseRow .crc v fun hs => hs.2.1
  | rxOverrun v => exact phaseRow .overrun v fun hs => hs.2.1
  | rxDrop v => exact phaseRow .drop v fun hs => hs.2.1
  | rxOversize =>
    exact .whenSelected (fun hs => hs.2.1) _
      (rejectOversize_inv h.headerLength h.payloadLength h.bytesWritten h.bufferOrdered h.bufferInRange)
  | rxComplete =>
    exact .whenSelected (fun hs => hs.2.1) _
      (completeFrame_inv h.headerLength h.payloadLength h.bufferOrdered h.bufferInRange)
  | reset c => exact execReset_inv c rfl
  | bufAppend b => exact appendByte_inv b h
  | txFrame cmd => exact .of_goesOn (exec_txFrame_goesOn cmd h)
  | rxByte b => exact raw b

/-! ### The environment's actions (log 16) -/

theorem readCursor_keepsSound (n : Nat) (h : SoundState s) : KeepsSound False (readCursor n s) := by
  obtain ⟨-, e⟩ | ⟨-, e⟩ := readCursor_cases n s <;> rw [e]
  · exact h.congr rfl rfl rfl rfl rfl rfl rfl rfl
  · exact not_false

theorem readTerminated_keepsSound (h : SoundState s) : KeepsSound False (readTerminated s) := by
  unfold readTerminated
  split
  · exact h.congr rfl rfl rfl rfl rfl rfl rfl rfl
  · exact not_false

/-- A shorter packet keeps every bound on the length. -/
theorem stripReturnCode_inv (h : SoundState s) : SoundState (stripReturnCode s) := by
  unfold stripReturnCode
  split
  · exact h.congr rfl rfl rfl rfl rfl rfl rfl rfl
  · rename_i hne
    have hle : (s.payloadLength - 1#16).toNat ≤ s.payloadLength.toNat := by bv_omega
    exact ⟨h.headerLength, hle.trans h.payloadLength, h.bytesWritten, h.dropIsIdle, h.idleCrc,
      fun hr => hle.trans (h.lengthBounded hr), fun h2 h3 => hle.trans (h.highPartOnly h2 h3), h.bufferOrdered,
      h.bufferInRange⟩

theorem appendAll_inv (bs : List Byte) (h : SoundState s) : SoundState (bs.foldl (fun t b => appendByte b t) s) := by
  induction bs generalizing s with
  | nil => exact h
  | cons b bs ih => exact ih (appendByte_inv b h)

theorem serializeBytes_inv (bs : List Byte) (h : SoundState s) : SoundState (serializeBytes bs s) := by
  unfold serializeBytes
  split
  · exact h.congr rfl rfl rfl rfl rfl rfl rfl rfl
  · exact appendAll_inv bs h

theorem envAct_keepsSound (a : EnvAction) (h : SoundState s) : KeepsSound False (envAct a s) := by
  cases a with
  | readU8 | readU16 | readF32 | readArray => exact readCursor_keepsSound _ h
  | readString => exact readTerminated_keepsSound h
  | clearRequestBit => exact h.congr rfl rfl rfl rfl rfl rfl rfl rfl
  | stripReturnCode => exact stripReturnCode_inv h
  | serialize bs => exact serializeBytes_inv bs h

/-! ### One step -/

theorem SoundState.withPending (h : SoundState s) (rest : List Input) : SoundState { s with pending := rest } :=
  h.congr rfl rfl rfl rfl rfl rfl rfl rfl

theorem step_keepsSound (h : SoundState s) : KeepsSound False (step s) := by
  match hp : s.pending with
  | [] => exact step_of_none hp ▸ h
  | .act a :: rest => exact step_of_act hp ▸ envAct_keepsSound a (h.withPending rest)
  | .word w :: rest =>
    cases hd : decode s.selector w with
    | ok i => exact step_of_decoded hp hd ▸ (exec_keepsSound i (h.withPending rest)).imp_false
    | rejected r => exact step_of_rejected hp hd ▸ not_false

/-! ### The statements -/

/-- Settles O45: an instruction or an action that goes on keeps the invariant, and the other two kinds of step do not
move. -/
theorem everyStepKeepsTheInvariant : Obligations.EveryStepKeepsTheInvariant :=
  fun _ _ h e => (step_keepsSound h).sound e

/-- Settles O47: each row that is selected in its position is not refused, and what goes on keeps the invariant. -/
theorem everySelectedInstructionGoesOn : Obligations.EverySelectedInstructionGoesOn :=
  fun i _ h hwf hsel hpos => (exec_keepsSound i h).goesOn ⟨hwf, hsel, hpos⟩

/-- Settles O46: of the outcomes of a step from a sound state none is a fault. -/
theorem noStepFaultsUnderTheInvariant : Obligations.NoStepFaultsUnderTheInvariant :=
  fun _ h => (step_keepsSound h).noFault

/-- Settles O44: after reset the decoder is at the start of a frame and the buffer is empty. -/
theorem resetStateMeetsTheInvariant : Obligations.ResetStateMeetsTheInvariant :=
  .atStart (.inl rfl) (Nat.zero_le _) (Nat.zero_le _) rfl rfl Memory.reset_wf (fun _ hc => nomatch hc)

/-- Settles O52: the four cases of a step, each by what is pending and what the decoder reads. -/
theorem stepRunsTheDecodedInstruction : Obligations.StepRunsTheDecodedInstruction :=
  fun _ => ⟨fun _ _ _ => step_of_decoded, fun _ _ _ => step_of_rejected, fun _ _ => step_of_act, step_of_none⟩

end Sys2Proof.Safety
end

section
/-! PROOFS. Decoding and encoding (30_encoding.md R81 to R100): the two agree in both directions, format by format. -/

namespace Sys2Proof

open Sys2Proof.Machine

/-! ### What each classifier reads -/

theorem classifyRaw_7D (unEscaping : Bool) : classifyRaw unEscaping 0x7D#8 = .rxEsc := by
  cases unEscaping <;> rfl

theorem classifyRaw_unescaped {b : Byte} (h : b ≠ 0x7D#8) : classifyRaw true b = .rxUnesc b := by
  simp [classifyRaw, h]

theorem classifyRaw_literal {b : Byte} (h : isSentinel b = false) : classifyRaw false b = .rxLit b := by
  obtain ⟨h7E, h7D⟩ : b ≠ 0x7E#8 ∧ b ≠ 0x7D#8 := by simpa [isSentinel] using h
  simp [classifyRaw, h7E, h7D]

theorem classifyLogical_literal {b : Byte} (h : isSentinel b = false) : classifyLogical b = .encLit b := by
  obtain ⟨h7E, h7D⟩ : b ≠ 0x7E#8 ∧ b ≠ 0x7D#8 := by simpa [isSentinel] using h
  simp [classifyLogical, h7E, h7D]

/-- A request byte above the seven reserved ones (R91). -/
theorem classifyCommand_request (c : BitVec 7) (h : 6 < c.toNat) :
    classifyCommand (byteWithBit7Set c) = .cmdRequest c := by
  revert c; decide +kernel

theorem classifyCommand_reply (c : BitVec 7) : classifyCommand (byteWithBit7Clear c) = .cmdReply c := by
  revert c; decide +kernel

/-- Settles O49: each row's word is read by its format's classifier, which the selecting registers send to that row. -/
theorem decodingAnEncodedInstructionGivesItBack : Obligations.DecodingAnEncodedInstructionGivesItBack := by
  intro sel i hwf hsel
  have raw : ∀ {f : Bool} (b : Byte), sel.unEscaping = f → decode sel ⟨.raw8, [b]⟩ = .ok (classifyRaw f b) :=
    fun b hf => hf ▸ rfl
  have phase : ∀ {p : Phase} (v : Byte), (sel.phase == p) = true → decode sel ⟨.phase, [v]⟩ = .ok (classifyPhase p v) :=
    fun v hp => eq_of_beq hp ▸ rfl
  have countTest : ∀ {c : CountTest}, (sel.countTest == c) = true → decode sel ⟨.countTest, []⟩ = classifyCountTest c :=
    fun hc => eq_of_beq hc ▸ rfl
  cases i with
  | rxFlag => exact raw _ (by simpa [Instr.selectedBy] using hsel)
  | rxEsc => exact (raw _ rfl).trans (congrArg _ (classifyRaw_7D _))
  | rxUnesc b => exact (raw b hsel).trans (congrArg _ (classifyRaw_unescaped (by simpa [Instr.wellFormed] using hwf)))
  | rxLit b =>
    exact (raw b (by simpa [Instr.selectedBy] using hsel)).trans
      (congrArg _ (classifyRaw_literal (by simpa [Instr.wellFormed] using hwf)))
  | encLit b =>
    exact (decode_log8 sel b).trans (congrArg _ (classifyLogical_literal (by simpa [Instr.wellFormed] using hwf)))
  | lenShort n => exact classifyLength_byteWithBit7Clear n
  | lenLong nHi nLo => exact classifyLength_byteWithBit7Set nHi nLo
  | cmdRequest c => exact congrArg _ (classifyCommand_request c (of_decide_eq_true hwf))
  | cmdReply c => exact congrArg _ (classifyCommand_reply c)
  | rxCmd v | rxLen1 v | rxLen2 v | rxPayload v | rxCrc v | rxOverrun v | rxDrop v => exact phase v hsel
  | rxOversize | rxComplete => exact countTest hsel
  | reset c => cases c <;> rfl
  | crc16Update c b => exact congrArg (fun k => DecodeResult.ok (.crc16Update k b)) (join16_hi8_lo8 c)
  | encEsc7E | encEsc7D | escPair7E | escPair7D | cmdStd80 | cmdStd81 | cmdStd82 | cmdStd83 | cmdStd84 | cmdStd85
  | cmdStd86 | bufAppend | txFrame | rxByte | encByte | decByte => rfl

/-! ### What is read encodes to the word it was read from -/

/-- The word is the instruction's own, and the instruction is one, selected there. -/
def IsWordOf (sel : Selector) (w : CodeWord) (i : Instr) : Prop :=
  i.wellFormed = true ∧ i.selectedBy sel = true ∧ encode i = w

theorem oneByte_eq_ok {f : Byte → DecodeResult} {bs : List Byte} {i : Instr} (h : oneByte f bs = .ok i) :
    ∃ b, bs = [b] ∧ f b = .ok i := by
  unfold oneByte at h
  split at h
  · exact ⟨_, rfl, h⟩
  · cases h

theorem classifyRaw_isWordOf (sel : Selector) (b : Byte) :
    IsWordOf sel ⟨.raw8, [b]⟩ (classifyRaw sel.unEscaping b) := by
  unfold classifyRaw
  split_ifs with h7E h7D hf
  · exact ⟨rfl, by simp [Instr.selectedBy, h7E.2], by rw [h7E.1]; rfl⟩
  · exact ⟨rfl, rfl, by rw [h7D]; rfl⟩
  · exact ⟨by simpa [Instr.wellFormed] using h7D, hf, rfl⟩
  · have hf : sel.unEscaping = false := by simpa using hf
    exact ⟨by simp [Instr.wellFormed, isSentinel_eq_false (fun h => h7E ⟨h, hf⟩) h7D],
      by simp [Instr.selectedBy, hf], rfl⟩

theorem classifyLogical_isWordOf (sel : Selector) (b : Byte) : IsWordOf sel ⟨.log8, [b]⟩ (classifyLogical b) := by
  unfold classifyLogical
  split_ifs with h7E h7D
  · exact ⟨rfl, rfl, by rw [h7E]; rfl⟩
  · exact ⟨rfl, rfl, by rw [h7D]; rfl⟩
  · exact ⟨by simp [Instr.wellFormed, isSentinel_eq_false h7E h7D], rfl, rfl⟩

theorem classifyPair_isWordOf {sel : Selector} {first second : Byte} {i : Instr} (h : classifyPair first second = .ok i) :
    IsWordOf sel ⟨.esc16, [first, second]⟩ i := by
  unfold classifyPair at h
  split_ifs at h with h7E h7D
  · cases h; exact ⟨rfl, rfl, by rw [h7E.1, h7E.2]; rfl⟩
  · cases h; exact ⟨rfl, rfl, by rw [h7D.1, h7D.2]; rfl⟩

theorem classifyLength_isWordOf {sel : Selector} {bs : List Byte} {i : Instr} (h : classifyLength bs = .ok i) :
    IsWordOf sel ⟨.len1, bs⟩ i := by
  unfold classifyLength at h
  split at h
  · split_ifs at h with h7
    cases h; exact ⟨rfl, rfl, by rw [encode, byteWithBit7Clear_of_bit7 _ (by simpa using h7)]⟩
  · split_ifs at h with h7
    cases h; exact ⟨rfl, rfl, by rw [encode, byteWithBit7Set_of_bit7 _ h7]⟩
  · cases h

/-- The seven reserved requests take their values before CMD.REQUEST does (R91). -/
theorem six_lt_of_not_reserved (b : Byte) (h7 : bit7 b = true)
    (h : b ≠ 0x80#8 ∧ b ≠ 0x81#8 ∧ b ≠ 0x82#8 ∧ b ≠ 0x83#8 ∧ b ≠ 0x84#8 ∧ b ≠ 0x85#8 ∧ b ≠ 0x86#8) :
    6 < (b.setWidth 7).toNat := by
  revert b; decide +kernel

theorem classifyCommand_isWordOf (sel : Selector) (b : Byte) : IsWordOf sel ⟨.cmd8, [b]⟩ (classifyCommand b) := by
  unfold classifyCommand
  split_ifs with h0 h1 h2 h3 h4 h5 h6 h7
  · exact ⟨rfl, rfl, by rw [h0]; rfl⟩
  · exact ⟨rfl, rfl, by rw [h1]; rfl⟩
  · exact ⟨rfl, rfl, by rw [h2]; rfl⟩
  · exact ⟨rfl, rfl, by rw [h3]; rfl⟩
  · exact ⟨rfl, rfl, by rw [h4]; rfl⟩
  · exact ⟨rfl, rfl, by rw [h5]; rfl⟩
  · exact ⟨rfl, rfl, by rw [h6]; rfl⟩
  · exact ⟨decide_eq_true (six_lt_of_not_reserved b h7 ⟨h0, h1, h2, h3, h4, h5, h6⟩), rfl,
      by rw [encode, byteWithBit7Set_of_bit7 b h7]⟩
  · exact ⟨rfl, rfl, by rw [encode, byteWithBit7Clear_of_bit7 b (by simpa using h7)]⟩

theorem classifyPhase_isWordOf (sel : Selector) (v : Byte) : IsWordOf sel ⟨.phase, [v]⟩ (classifyPhase sel.phase v) := by
  cases h : sel.phase <;> exact ⟨rfl, by simp [classifyPhase, Instr.selectedBy, h], rfl⟩

theorem classifyCountTest_isWordOf {sel : Selector} {i : Instr} (h : classifyCountTest sel.countTest = .ok i) :
    IsWordOf sel ⟨.countTest, []⟩ i := by
  cases hc : sel.countTest <;> rw [hc] at h <;> cases h <;> exact ⟨rfl, by simp [Instr.selectedBy, hc], rfl⟩

theorem resetOperand_isWordOf {sel : Selector} {b : Byte} {i : Instr} (h : resetOperand b = .ok i) :
    IsWordOf sel ⟨.reset, [b]⟩ i := by
  unfold resetOperand at h
  split_ifs at h with h0 h1
  · cases h; exact ⟨rfl, rfl, by rw [h0]; rfl⟩
  · cases h; exact ⟨rfl, rfl, by rw [h1]; rfl⟩

/-- Settles O50: a word is read by the classifier of its port, and what each classifier reads has that word. -/
theorem encodingADecodedWordGivesItBack : Obligations.EncodingADecodedWordGivesItBack := by
  rintro sel ⟨port, bs⟩ i h
  change IsWordOf sel ⟨port, bs⟩ i
  cases port with
  | esc16 =>
    match bs, h with
    | [first, second], h => exact classifyPair_isWordOf h
  | len1 => exact classifyLength_isWordOf h
  | countTest =>
    match bs, h with
    | [], h => exact classifyCountTest_isWordOf h
  | crc16Update =>
    match bs, h with
    | [cLo, cHi, b], h => cases h; exact ⟨rfl, rfl, by simp [encode]⟩
  | raw8 => obtain ⟨b, rfl, hb⟩ := oneByte_eq_ok h; cases hb; exact classifyRaw_isWordOf sel b
  | log8 => obtain ⟨b, rfl, hb⟩ := oneByte_eq_ok h; cases hb; exact classifyLogical_isWordOf sel b
  | cmd8 => obtain ⟨b, rfl, hb⟩ := oneByte_eq_ok h; cases hb; exact classifyCommand_isWordOf sel b
  | phase => obtain ⟨v, rfl, hv⟩ := oneByte_eq_ok h; cases hv; exact classifyPhase_isWordOf sel v
  | reset => obtain ⟨b, rfl, hb⟩ := oneByte_eq_ok h; exact resetOperand_isWordOf hb
  | bufAppend | txFrame | rxByte | encByte | decByte =>
    obtain ⟨b, rfl, hb⟩ := oneByte_eq_ok h; cases hb; exact ⟨rfl, rfl, rfl⟩

/-- Settles O51: the classifiers compute. -/
theorem writtenOutWordsDecodeToTheirRows : Obligations.WrittenOutWordsDecodeToTheirRows := by
  unfold Obligations.WrittenOutWordsDecodeToTheirRows
  decide

/-! ### A word of the opcode table placed in any state -/

/-- The decoder reads a table word at a format that asks for the escape flag (RAW8) or for no register at all. -/
theorem decode_tableWord {sel : Selector} {nbits w : Nat}
    (h : tablePort nbits w = .raw8 → sel.unEscaping = false) :
    decode sel (tableWord nbits w) = decode tableSelector (tableWord nbits w) := by
  unfold tableWord
  have hport : tablePort nbits w = .esc16 ∨ tablePort nbits w = .raw8 ∨ tablePort nbits w = .cmd8 ∨
      tablePort nbits w = .len1 := by
    unfold tablePort
    split_ifs <;> simp
  obtain hp | hp | hp | hp := hport <;> rw [hp]
  · rfl
  · simp only [decode, oneByte, h hp]; rfl
  · rfl
  · dsimp only; split <;> rfl

theorem decode_of_decodeTableWord {nbits w : Nat} {i : Instr} (h : decodeTableWord nbits w = some i) :
    decode tableSelector (tableWord nbits w) = .ok i := by
  unfold decodeTableWord at h
  split at h
  · split at h
    · cases h; assumption
    · cases h
  · cases h

/-- Settles O53: the placed word is the next input, its format asks at most for the escape flag, and placing clears that. -/
theorem placedTableWordIsRunByTheNextStep : Obligations.PlacedTableWordIsRunByTheNextStep := by
  intro s nbits w i h
  refine step_of_decoded (rest := (placeFor (tablePort nbits w) s).pending) rfl ?_
  rw [decode_tableWord, decode_of_decodeTableWord h]
  intro hp
  simp only [State.withFetchWord, hp]
  rfl

end Sys2Proof
end

section
/-! PROOFS. The escape codec on sequences (40_frame_codec.md R111 to R114) and the size of a frame. -/

namespace Sys2Proof.Machine

theorem exec_decByte (b : Byte) (s : State) :
    exec (.decByte b) s =
      .next (answer (.logical (decodeByte s.unEscaping b).2) { s with unEscaping := (decodeByte s.unEscaping b).1 }) :=
  rfl

/-- Settles O3: the three cases of `decode_byte`; in the last one the flag was clear and stays so. -/
theorem decByteTakesItsThreeCasesInOrder : Obligations.DecByteTakesItsThreeCasesInOrder := by
  intro b s
  rw [exec_decByte]
  obtain ⟨hb, e⟩ | ⟨hb, hf, e⟩ | ⟨hb, hf, e⟩ := decodeByte_cases s.unEscaping b <;> rw [e]
  · rw [if_pos hb]; rfl
  · rw [if_neg hb, if_pos hf]; rfl
  · rw [if_neg hb, if_neg (by simp [hf])]
    show _ = Host.Outcome.next (answer (.logical (some b)) s)
    rw [unEscaping_eta hf]

/-! ### The encoded form of one byte -/

/-- Where a byte is escaped its second raw byte is 5E or 5D, hence no sentinel. -/
theorem encodeByte_form (b : Byte) :
    (b ≠ 0x7E#8 ∧ b ≠ 0x7D#8 ∧ encodeByte b = [b]) ∨
    (∃ x, (x = 0x5E#8 ∨ x = 0x5D#8) ∧ x ^^^ 0x20#8 = b ∧ encodeByte b = [0x7D#8, x]) := by
  obtain ⟨rfl | rfl, e⟩ | h := encodeByte_cases b
  · exact .inr ⟨0x5E#8, .inl rfl, by decide, e⟩
  · exact .inr ⟨0x5D#8, .inr rfl, by decide, e⟩
  · exact .inl h

theorem decodeByte_literal {b : Byte} (h : b ≠ 0x7D#8) : decodeByte false b = (false, some b) := by
  simp [decodeByte, h]

theorem decodeByte_unescaped {b : Byte} (h : b ≠ 0x7D#8) : decodeByte true b = (false, some (b ^^^ 0x20#8)) := by
  simp [decodeByte, h]

theorem decodeBytes_encodeByte (b : Byte) : decodeBytes false (encodeByte b) = (false, [b]) := by
  obtain ⟨-, h7D, e⟩ | ⟨x, hx, hb, e⟩ := encodeByte_form b <;> rw [e]
  · simp only [decodeBytes_cons, decodeByte_literal h7D, decodeBytes_nil, Option.toList_some, List.append_nil]
  · have h7D : x ≠ 0x7D#8 := by rcases hx with rfl | rfl <;> decide
    have hesc : decodeByte false 0x7D#8 = (true, none) := rfl
    simp only [decodeBytes_cons, hesc, decodeByte_unescaped h7D, hb, decodeBytes_nil, Option.toList_none,
      Option.toList_some, List.nil_append, List.append_nil]

/-- The round trip (R113). -/
theorem decodeBytes_encodeBytes (bs : List Byte) : decodeBytes false (encodeBytes bs) = (false, bs) := by
  induction bs with
  | nil => rfl
  | cons b bs ih => rw [encodeBytes_cons, decodeBytes_append, decodeBytes_encodeByte, ih]; rfl

/-- Settles O4: the round trip holds byte by byte; the raw pair 7D 00 is 20, which is sent without an escape. -/
theorem decodingUndoesEncoding : Obligations.DecodingUndoesEncoding :=
  ⟨decodeBytes_encodeBytes, [0x7D#8, 0x00#8], by decide⟩

/-! ### What the encoder never emits (R114) -/

theorem boundary_notMem_encodeBytes (bs : List Byte) : 0x7E#8 ∉ encodeBytes bs := by
  intro h
  obtain ⟨b, -, hb⟩ := List.mem_flatMap.1 h
  obtain ⟨h7E, -, e⟩ | ⟨x, rfl | rfl, -, e⟩ := encodeByte_form b <;> rw [e] at hb
  · exact h7E (List.mem_singleton.1 hb).symm
  all_goals exact absurd hb (by decide)

theorem escape_before_5E_or_5D (bs before after : List Byte) (h : encodeBytes bs = before ++ 0x7D#8 :: after) :
    ∃ rest, after = 0x5E#8 :: rest ∨ after = 0x5D#8 :: rest := by
  induction bs generalizing before with
  | nil => exact absurd h (by simp)
  | cons b bs ih =>
    rw [encodeBytes_cons] at h
    obtain ⟨-, h7D, e⟩ | ⟨x, hx, -, e⟩ := encodeByte_form b <;> rw [e] at h
    · match before, h with
      | [], h => exact absurd (List.cons.inj h).1 h7D
      | _ :: before, h => exact ih before (List.cons.inj h).2
    · match before, h with
      | [], h =>
        obtain rfl := (List.cons.inj h).2
        exact ⟨encodeBytes bs, hx.imp (congrArg (· :: encodeBytes bs)) (congrArg (· :: encodeBytes bs))⟩
      | [_], h =>
        obtain rfl := (List.cons.inj (List.cons.inj h).2).1
        exact absurd hx (by decide)
      | _ :: _ :: before, h => exact ih before (List.cons.inj (List.cons.inj h).2).2

/-- One or two raw bytes for each logical byte. -/
theorem encodeBytes_length (bs : List Byte) :
    bs.length ≤ (encodeBytes bs).length ∧ (encodeBytes bs).length ≤ 2 * bs.length := by
  induction bs with
  | nil => exact ⟨le_rfl, le_rfl⟩
  | cons b bs ih =>
    rw [encodeBytes_cons, List.length_append, List.length_cons]
    obtain ⟨-, -, e⟩ | ⟨x, -, -, e⟩ := encodeByte_form b <;> rw [e]
    · simp only [List.length_singleton]; omega
    · simp only [List.length_cons, List.length_nil]; omega

/-- Settles O5: the three parts, each by induction on the sequence. -/
theorem encoderOutputIsTransparent : Obligations.EncoderOutputIsTransparent :=
  fun bs => ⟨boundary_notMem_encodeBytes bs, escape_before_5E_or_5D bs, encodeBytes_length bs⟩

/-! ### The size of a frame (R96, R98) -/

/-- How many bytes the header of a frame with `n` payload bytes has (R87). -/
def headerSize (n : Nat) : Nat := if n < 128 then 2 else 3

theorem lengthBytes_length {n : Nat} (h : n ≤ 32767) : (lengthBytes (BitVec.ofNat 16 n)).length + 1 = headerSize n := by
  have hn : (BitVec.ofNat 16 n).toNat = n := by rw [BitVec.toNat_ofNat]; omega
  unfold headerSize
  split
  · rw [lengthBytes_short (by omega)]; rfl
  · rw [lengthBytes_long (by omega)]; rfl

theorem frameBody_length (cmd : Byte) {p : List Byte} (h : p.length ≤ 32767) :
    (frameBody cmd p).length = headerSize p.length + p.length := by
  rw [frameBody, List.length_append, List.length_cons, lengthBytes_length h]

theorem frameLogical_length (crcOn : Bool) (cmd : Byte) {p : List Byte} (h : p.length ≤ 32767) :
    (frameLogical crcOn cmd p).length = headerSize p.length + p.length + crcLength crcOn := by
  rw [frameLogical, List.length_append, frameBody_length cmd h]
  cases crcOn <;> rfl

/-- Settles O30: a frame is the boundary and then encoder output, of which the size and the bytes are known. -/
theorem frameSizeAndItsOnlyBoundary : Obligations.FrameSizeAndItsOnlyBoundary := by
  intro crcOn cmd p h total
  have hsize := encodeBytes_length (frameLogical crcOn cmd p)
  have htotal : (frameLogical crcOn cmd p).length = total := by
    rw [frameLogical_length crcOn cmd h]; simp only [headerSize, total]; omega
  rw [htotal] at hsize
  refine ⟨?_, ?_, rfl, boundary_notMem_encodeBytes _⟩ <;> simp only [frame, List.length_cons] <;> omega

end Sys2Proof.Machine
end

section
/-! PROOFS. The CRC (43_crc16.md R190 to R193): an update is linear and loses nothing, so a residue and a changed byte show. -/

namespace Sys2Proof.Machine

/-! ### The shifts as iterates -/

theorem crcShifts_eq_iterate (k : Nat) (c : Word16) : crcShifts k c = crcShift^[k] c := by
  induction k generalizing c with
  | zero => rfl
  | succ k ih => exact ih (crcShift c)

theorem crc16Update_eq_xor (c : Word16) (b : Byte) : crc16Update c b = crc16Update (c ^^^ b.setWidth 16) 0#8 := by
  simp [crc16Update]

/-- Settles O36: the update is the eighth iterate of one shift, from the XOR of its operands. -/
theorem crcUpdateIsEightConditionalShifts : Obligations.CrcUpdateIsEightConditionalShifts :=
  ⟨fun _ _ _ => rfl, fun c b => ⟨crcShifts_eq_iterate 8 _, crc16Update_eq_xor c b⟩⟩

/-! ### Nothing is lost by a shift -/

/-- A 1 that falls out comes back at bit 15, with the polynomial; so only zero shifts to zero. -/
theorem crcShift_eq_zero {c : Word16} (h : crcShift c = 0#16) : c = 0#16 := by
  unfold crcShift at h
  split at h
  · have h15 := congrArg (BitVec.getLsbD · 15) h
    simp at h15
  · have hlow : c.toNat % 2 = 0 := by simp_all [BitVec.getLsbD, Nat.testBit_zero]
    have hhigh : c.toNat / 2 = 0 := by simpa [Nat.shiftRight_eq_div_pow] using congrArg BitVec.toNat h
    exact BitVec.eq_of_toNat_eq (by simp; omega)

theorem crcShift_injective : Function.Injective crcShift := fun a b h =>
  BitVec.xor_eq_zero_iff.1 (crcShift_eq_zero (by rw [crcShift_xor, h, BitVec.xor_self]))

theorem crcShifts_injective (k : Nat) : Function.Injective (crcShifts k) := fun a b h =>
  crcShift_injective.iterate k (by simpa only [crcShifts_eq_iterate] using h)

theorem crc16Update_eq_iff (c : Word16) (b : Byte) (d : Word16) :
    crc16Update c b = crcShifts 8 d ↔ c = d ^^^ b.setWidth 16 := by
  rw [crc16Update, (crcShifts_injective 8).eq_iff, ← BitVec.xor_left_inj (b.setWidth 16) (y := d), BitVec.xor_assoc,
    BitVec.xor_self, BitVec.xor_zero]

/-! ### The residue (R193) -/

/-- Eight shifts of a high byte alone bring it down unchanged: no 1 falls out. -/
theorem crcShifts_highByte (y : Byte) : crcShifts 8 (y.setWidth 16 <<< 8) = y.setWidth 16 := by
  revert y; decide +kernel

/-- The high byte and the low byte share no bit, so XOR puts them together. -/
theorem join16_eq_xor (hi lo : Byte) : join16 hi lo = hi.setWidth 16 <<< 8 ^^^ lo.setWidth 16 := by
  ext i hi16
  by_cases hi8 : i < 8
  · simp [join16, hi8]
  · simp [join16, hi8, BitVec.getLsbD_of_ge lo i (by omega)]

theorem eq_join16_iff {k : Word16} {hi lo : Byte} : k = join16 hi lo ↔ lo = lo8 k ∧ hi = hi8 k := by
  constructor
  · rintro rfl
    exact ⟨(lo8_join16 hi lo).symm, (hi8_join16 hi lo).symm⟩
  · rintro ⟨rfl, rfl⟩
    exact (join16_hi8_lo8 k).symm

/-- The next CRC is a byte alone exactly when the bytes folded are the low and the high one of the CRC before. -/
theorem crc16Update_eq_byte_iff (k : Word16) (x y : Byte) :
    crc16Update k x = y.setWidth 16 ↔ x = lo8 k ∧ y = hi8 k := by
  rw [← crcShifts_highByte, crc16Update_eq_iff, ← join16_eq_xor, eq_join16_iff]

theorem crc16Update_eq_zero_iff (c : Word16) (y : Byte) : crc16Update c y = 0#16 ↔ c = y.setWidth 16 := by
  rw [show (0#16 : Word16) = crcShifts 8 0#16 from rfl, crc16Update_eq_iff, BitVec.zero_xor]

theorem crc16_append (m n : List Byte) : crc16 (m ++ n) = crcFold (crc16 m) n := crcFold_append _ m n

/-- Settles O37: the second update is zero for one value of the first, which is a byte alone for one pair. -/
theorem residueIsZeroExactlyForTheRightCrc : Obligations.ResidueIsZeroExactlyForTheRightCrc := by
  intro m x y
  rw [crc16_append, crcFold_cons, crcFold_cons, crcFold_nil, crc16Update_eq_zero_iff, crc16Update_eq_byte_iff]

/-! ### One changed byte (R266) -/

theorem crc16Update_injective_crc (b : Byte) : Function.Injective (crc16Update · b) := fun _ _ h =>
  (BitVec.xor_left_inj _).1 (crcShifts_injective 8 h)

theorem crc16Update_injective_byte (c : Word16) : Function.Injective (crc16Update c) := fun a b h => by
  have hwide := congrArg (BitVec.setWidth 8) ((BitVec.xor_right_inj _).1 (crcShifts_injective 8 h))
  simpa using hwide

theorem crcFold_injective (m : List Byte) : Function.Injective (crcFold · m) := by
  induction m with
  | nil => exact fun _ _ h => h
  | cons b m ih => exact ih.comp (crc16Update_injective_crc b)

/-- Settles O38: the changed byte changes the CRC, and the bytes after it keep different CRCs apart. -/
theorem oneChangedByteInTheSameSpanIsDetected : Obligations.OneChangedByteInTheSameSpanIsDetected := by
  intro before after x y hne h
  rw [crc16_append, crc16_append] at h
  exact hne (crc16Update_injective_byte _ (crcFold_injective after h))

end Sys2Proof.Machine
end

section
/-! PROOFS. The raw classes of RX.BYTE (42_packet_decoder.md R153 to R155): the row of the byte's class, and the logical byte
taken by its phase. -/

namespace Sys2Proof.Machine

/-- Settles O7: RX.FLAG and RX.BYTE of 7E are the same reset with no escape pending; with one, the row is not selected. -/
theorem unescapedBoundaryResetsTheDecoder : Obligations.UnescapedBoundaryResetsTheDecoder := by
  refine fun s => ⟨fun hf => ⟨?_, receiveRaw_boundary hf⟩, fun hf => ?_⟩
  · rw [exec_rxFlag, whenSelected_of (by simp [hf])]; rfl
  · rw [exec_rxFlag, whenSelected_of_not (by simp [hf])]

theorem exec_classifyRaw (b : Byte) (s : State) : exec (classifyRaw s.unEscaping b) s = receiveRaw b s := by
  unfold classifyRaw
  split_ifs with h7E h7D hf
  · rw [exec_rxFlag, whenSelected_of (by simp [h7E.2]), h7E.1, receiveRaw_boundary h7E.2]
  · rw [exec_rxEsc, h7D, receiveRaw_7D]
  · rw [exec_rxUnesc, whenSelected_of (by simpa [hf] using h7D)]
  · have hf : s.unEscaping = false := by simpa using hf
    rw [exec_rxLit, whenSelected_of (by simp [hf, isSentinel_eq_false (fun h => h7E ⟨h, hf⟩) h7D])]

/-- Settles O8: the decoder's class is the rule's by definition, and each class is RX.BYTE where it is selected. -/
theorem rxByteRunsTheRowOfItsClass : Obligations.RxByteRunsTheRowOfItsClass :=
  fun b s => ⟨rfl, (exec_classifyRaw b s).symm⟩

/-- Settles O9: the logical byte goes to `acceptLogical`, which is the row of the phase; the flag is no matter to the phase. -/
theorem logicalByteIsTakenByItsPhase : Obligations.LogicalByteIsTakenByItsPhase := by
  refine fun b s => ⟨fun hf h7D => ?_, fun hf h7E h7D => ?_⟩
  · have hraw : receiveRaw b s = exec (classifyPhase s.phase (b ^^^ 0x20#8)) { s with unEscaping := false } := by
      rw [receiveRaw_unescaped hf h7D]
      exact (exec_classifyPhase_self (b ^^^ 0x20#8) { s with unEscaping := false }).symm
    exact ⟨by rw [exec_rxUnesc, whenSelected_of (by simpa [hf] using h7D), hraw], hraw⟩
  · have hraw : receiveRaw b s = exec (classifyPhase s.phase b) s := by
      rw [receiveRaw_literal hf h7E h7D, exec_classifyPhase_self]
    exact ⟨by rw [exec_rxLit, whenSelected_of (by simp [hf, isSentinel_eq_false h7E h7D]), hraw], hraw⟩

/-- Settles O10: only the escape byte leaves the flag set; a boundary needs it clear, and a logical byte clears it. -/
theorem flagIsSetExactlyAfterAnEscape : Obligations.FlagIsSetExactlyAfterAnEscape := by
  intro b s t e
  rw [exec_rxByte] at e
  obtain ⟨hb, hf, h⟩ | ⟨hb, h⟩ | ⟨hb, hf, h⟩ | ⟨-, hb, hf, h⟩ := receiveRaw_cases b s <;> rw [h] at e
  · cases e; simp [hb, hf]
  · cases e; simp [hb]
  · simp [(acceptLogical_keeps e).unEscaping, hb]
  · simp [(acceptLogical_keeps e).unEscaping, hb]

/-- Settles O11: an escaped pair is its logical byte, which is the row of the phase. -/
theorem escapedPairStandsForItsLogicalByte : Obligations.EscapedPairStandsForItsLogicalByte := fun s =>
  ⟨(exec_escPair7E s).trans (exec_classifyPhase_self 0x7E#8 { s with unEscaping := false }).symm,
    (exec_escPair7D s).trans (exec_classifyPhase_self 0x7D#8 { s with unEscaping := false }).symm⟩

/-! ### Rows that are not selected (log 8) -/

/-- Settles O22: each row stands under `whenSelected`, and its test fails. -/
theorem unselectedRowsAreRefusedByName : Obligations.UnselectedRowsAreRefusedByName := by
  intro v n s
  have position : ∀ {p : Phase} (m : String) (o : Host.Outcome State Fault Refusal), s.phase ≠ p →
      whenSelected (s.phase == p) m o = .refused (.rowNotSelected m) :=
    fun m o h => whenSelected_of_not (beq_eq_false_iff_ne.2 h) m o
  refine ⟨fun h => whenSelected_of_not (by simp [h]) _ _, fun h => exec_classifyPhase_of_ne h v,
    fun h => exec_classifyPhase_of_ne h v, fun h => exec_classifyPhase_of_ne h v, fun h => exec_classifyPhase_of_ne h v,
    fun h => exec_classifyPhase_of_ne h v, fun h => exec_classifyPhase_of_ne h v, fun h => exec_classifyPhase_of_ne h v,
    fun h => whenSelected_of_not (beq_eq_false_iff_ne.2 h) _ _,
    fun h => whenSelected_of_not (beq_eq_false_iff_ne.2 h) _ _,
    fun h => whenSelected_of_not ?_ _ _, fun h => whenSelected_of_not ?_ _ _, fun h => whenSelected_of_not ?_ _ _,
    fun h => ⟨position _ _ h, ?_⟩,
    fun h => ⟨position _ _ h, position _ _ h, position _ _ h, position _ _ h, position _ _ h, position _ _ h,
      position _ _ h, position _ _ h, position _ _ h⟩⟩
  · rcases h with h | h <;> simp [h]
  · rcases h with h | h | h <;> simp [h, isSentinel]
  · rcases h with h | h <;> simp [h, isSentinel]
  · rw [exec_lenLong, position _ _ h]; rfl

end Sys2Proof.Machine
end

section
/-! PROOFS. The phases of the decoder (42_packet_decoder.md R156 to R167): what each phase's row does, and the rows of the header
formats, which are the same logical bytes. -/

namespace Sys2Proof.Machine

/-! ### Steps 7 to 9 by the number counted -/

section
variable {s : State}

theorem endByte_counted_oversize (hb : s.bytesReceived.toNat < 0xFFFF)
    (hc : s.bytesReceived.toNat + 1 = s.headerLength.toNat) (hl : s.maxLen < s.payloadLength.toNat) :
    endByte s = rejectOversize s := by
  rw [endByte_oversize (countTest_eq_oversize.2 ?_), countByte_below hb]
  · rfl
  · rw [countByte_toNat, countByte_headerLength, countByte_maxLen, countByte_payloadLength]
    exact ⟨by omega, hl⟩

/-- A byte counted below the limit, its length within the buffer where the header ends with it: it completes the frame exactly if
the count reaches the total. -/
theorem endByte_counted (hb : s.bytesReceived.toNat < 0xFFFF)
    (hover : s.bytesReceived.toNat + 1 = s.headerLength.toNat → s.payloadLength.toNat ≤ s.maxLen) :
    endByte s =
      if s.bytesReceived.toNat + 1 = s.total then completeFrame { s with bytesReceived := s.bytesReceived + 1#16 }
      else { s with bytesReceived := s.bytesReceived + 1#16 } := by
  have hcount : (countByte s).bytesReceived.toNat = s.bytesReceived.toNat + 1 := by
    rw [countByte_toNat]; omega
  have hnot : ¬((countByte s).bytesReceived.toNat = (countByte s).headerLength.toNat ∧
      (countByte s).maxLen < (countByte s).payloadLength.toNat) := by
    rw [hcount, countByte_headerLength, countByte_maxLen, countByte_payloadLength]
    exact fun h => absurd (hover h.1) (by omega)
  split
  · rw [endByte_complete (countTest_eq_complete.2 ⟨hnot, by rwa [hcount, countByte_total]⟩), countByte_below hb]
  · rw [endByte_neither (countTest_eq_neither.2 ⟨hnot, by rwa [hcount, countByte_total]⟩), countByte_below hb]

theorem endByte_counted_neither (hb : s.bytesReceived.toNat < 0xFFFF)
    (hover : s.bytesReceived.toNat + 1 = s.headerLength.toNat → s.payloadLength.toNat ≤ s.maxLen)
    (ht : s.bytesReceived.toNat + 1 ≠ s.total) : endByte s = { s with bytesReceived := s.bytesReceived + 1#16 } := by
  rw [endByte_counted hb hover, if_neg ht]

theorem crcLength_eq_zero_iff (c : Bool) : crcLength c = 0 ↔ c = false := by cases c <;> decide

/-- The byte that ends the header, its length within the buffer: with neither payload nor CRC to come the packet is delivered
at once (D8). -/
theorem endByte_headerEnd (hc : s.bytesReceived.toNat + 1 = s.headerLength.toNat)
    (hl : s.payloadLength.toNat ≤ s.maxLen) :
    endByte s =
      if s.payloadLength.toNat = 0 ∧ s.crcEnabled = false then
        { s with bytesReceived := 0#16, bytesRead := 0#16, bytesWritten := 0#16, rxCrc := 0xFFFF#16,
                 events := s.events ++ [.rxPacket s.packetCmd s.payloadLength] }
      else { s with bytesReceived := s.bytesReceived + 1#16 } := by
  have hh := s.headerLength.isLt
  have htotal : s.bytesReceived.toNat + 1 = s.total ↔ s.payloadLength.toNat = 0 ∧ s.crcEnabled = false := by
    rw [← crcLength_eq_zero_iff, State.total]; omega
  rw [endByte_counted (by omega) fun _ => hl]
  simp only [htotal]
  refine if_ctx_congr Iff.rfl (fun h => ?_) (fun _ => rfl)
  simp [completeFrame, completionEvent, frameAccepted, raise, h.2]

/-- A row of a phase, in its phase. -/
theorem exec_inPhase {p : Phase} (hp : s.phase = p) (hd : p ≠ .drop) (hi : p = .payload → s.payloadIndex < s.maxLen)
    (v : Byte) : exec (classifyPhase p v) s = .next (endByte (updateByPhase v s)) := by
  subst hp
  rw [exec_classifyPhase_self, acceptLogical_update hd hi]

end

/-! ### The phase once the header is whole (R152) -/

section
variable {s : State} (hd : s.rxDrop = false) (h2 : 2 ≤ s.bytesReceived.toNat)
  (hh : s.headerLength.toNat ≤ s.bytesReceived.toNat)
include hd h2 hh

theorem phase_past_header :
    s.phase =
      if s.payloadIndex < s.payloadLength.toNat then .payload
      else if s.crcEnabled = true ∧ s.bytesReceived.toNat < s.payloadLength.toNat + s.headerLength.toNat + 2 then .crc
      else .overrun := by
  have h0 : s.bytesReceived ≠ 0#16 := fun h => by simp [h] at h2
  have h1 : s.bytesReceived ≠ 1#16 := fun h => by simp [h] at h2
  have hlen2 : ¬(s.bytesReceived = 2#16 ∧ s.headerLength = 3#2) := fun h => by simp [h.1, h.2] at hh
  unfold State.phase
  rw [if_neg (by simp [hd]), if_neg h0, if_neg h1, if_neg hlen2]
  by_cases hi : s.payloadIndex < s.payloadLength.toNat
  · rw [if_pos ⟨hh, hi⟩, if_pos hi]
  · have hle : s.payloadLength.toNat + s.headerLength.toNat ≤ s.bytesReceived.toNat := by
      simp only [State.payloadIndex] at hi
      omega
    rw [if_neg fun h => hi h.2, if_neg hi]
    simp only [hle, true_and]

theorem phase_eq_payload (hi : s.payloadIndex < s.payloadLength.toNat) : s.phase = .payload := by
  rw [phase_past_header hd h2 hh, if_pos hi]

theorem phase_eq_crc (hi : s.payloadLength.toNat ≤ s.payloadIndex) (hc : s.crcEnabled = true)
    (hlt : s.bytesReceived.toNat < s.payloadLength.toNat + s.headerLength.toNat + 2) : s.phase = .crc := by
  rw [phase_past_header hd h2 hh, if_neg (by omega), if_pos ⟨hc, hlt⟩]

end

/-! ### IDLE (R158) -/

theorem acceptLogical_idle {s : State} (hd : s.rxDrop = false) (h0 : s.bytesReceived = 0#16)
    (hh : s.headerLength = 2#2 ∨ s.headerLength = 3#2) (v : Byte) :
    acceptLogical v s =
      .next { s with packetCmd := v, rxCrc := crc16Update s.rxCrc v, bytesReceived := 1#16 } := by
  have hp := phase_eq_idle.2 ⟨hd, h0⟩
  have hn := headerLength_toNat hh
  rw [acceptLogical_update (by simp [hp]) (by simp [hp]), updateByPhase_idle hp, endByte_counted_neither]
  · simp [takeCommand, foldRxCrc, h0]
  · simp [h0]
  · simp [h0]; omega
  · simp [h0, State.total]; omega

/-- Settles O12: the update of phase IDLE, counted as the first byte, which no test ends. -/
theorem idlePhaseTakesTheCommandByte : Obligations.IdlePhaseTakesTheCommandByte := by
  intro v s hd h0 hh
  rw [← acceptLogical_idle hd h0 hh, ← exec_classifyPhase_self, phase_eq_idle.2 ⟨hd, h0⟩]
  rfl

/-- Settles O26: each command row is its byte taken in phase IDLE. -/
theorem commandRowsStoreTheirByteUnchanged : Obligations.CommandRowsStoreTheirByteUnchanged := by
  intro s hd h0 hh took
  have row : ∀ (m : String) (b : Byte), takeCommandByte m b s = took b := fun m b => by
    rw [takeCommandByte, whenSelected_of (beq_iff_eq.2 (phase_eq_idle.2 ⟨hd, h0⟩)), acceptLogical_idle hd h0 hh]
  exact ⟨fun c => row _ _, fun c => row _ _, row _ _, row _ _, row _ _, row _ _, row _ _, row _ _, row _ _⟩

/-! ### LEN1 (R159) -/

section
variable {s : State} {v : Byte}

theorem acceptLogical_len1 (hd : s.rxDrop = false) (h1 : s.bytesReceived = 1#16) :
    acceptLogical v s = .next (endByte (takeFirstLength v (foldRxCrc v s))) := by
  have hp := phase_eq_len1.2 ⟨hd, h1⟩
  rw [acceptLogical_update (by simp [hp]) (by simp [hp]), updateByPhase_len1 hp]

/-- The long form: the header is not whole yet, so no test can hold. -/
theorem acceptLogical_len1_long (hd : s.rxDrop = false) (h1 : s.bytesReceived = 1#16) (h7 : v.getLsbD 7 = true) :
    acceptLogical v s =
      .next { s with headerLength := 3#2, payloadLength := (v &&& 0x7F#8).setWidth 16 <<< 8,
                     rxCrc := crc16Update s.rxCrc v, bytesReceived := 2#16 } := by
  rw [acceptLogical_len1 hd h1, endByte_counted_neither]
  · simp [takeFirstLength, foldRxCrc, h1, headerLengthOf_long h7, firstLengthOf_long h7]
  · simp [h1]
  · simp [h1, headerLengthOf_long h7]
  · simp [h1, headerLengthOf_long h7, State.total]; omega

/-- The short form within the buffer: the frame is complete at once if it has neither payload nor CRC (D8). -/
theorem acceptLogical_len1_short (hd : s.rxDrop = false) (h1 : s.bytesReceived = 1#16) (h7 : v.getLsbD 7 = false)
    (hv : v.toNat ≤ s.maxLen) :
    acceptLogical v s = .next (
      if v = 0#8 ∧ s.crcEnabled = false then
        { s with headerLength := 2#2, payloadLength := 0#16, rxCrc := 0xFFFF#16, bytesReceived := 0#16,
                 bytesRead := 0#16, bytesWritten := 0#16, events := s.events ++ [.rxPacket s.packetCmd 0#16] }
      else
        { s with headerLength := 2#2, payloadLength := v.setWidth 16, rxCrc := crc16Update s.rxCrc v,
                 bytesReceived := 2#16 }) := by
  have hlen : (firstLengthOf v).toNat = v.toNat := by
    rw [firstLengthOf_short h7, BitVec.toNat_setWidth_of_le (by decide)]
  rw [acceptLogical_len1 hd h1, endByte_headerEnd (by simp [h1, headerLengthOf_short h7]) (by simpa [hlen] using hv)]
  have hzero : v.toNat = 0 ↔ v = 0#8 := by simp [BitVec.toNat_eq]
  simp only [takeFirstLength, foldRxCrc, headerLengthOf_short h7, firstLengthOf_short h7] at hlen ⊢
  refine congrArg _ (if_ctx_congr (by rw [hlen, hzero]) (fun h => ?_) fun _ => ?_)
  · rw [h.1]; rfl
  · rw [h1]; rfl

/-- The short form above the buffer (R165, D10). -/
theorem acceptLogical_len1_oversize (hd : s.rxDrop = false) (h1 : s.bytesReceived = 1#16) (h7 : v.getLsbD 7 = false)
    (hv : s.maxLen < v.toNat) :
    acceptLogical v s =
      .next { s with headerLength := 2#2, payloadLength := v.setWidth 16, rxCrc := 0xFFFF#16, bytesReceived := 0#16,
                     rxDrop := true, events := s.events ++ [.rxError 6#8] } := by
  rw [acceptLogical_len1 hd h1, endByte_counted_oversize (by simp [h1]) (by simp [h1, headerLengthOf_short h7])]
  · simp [rejectOversize, raise, takeFirstLength, foldRxCrc, headerLengthOf_short h7, firstLengthOf_short h7]
  · rw [takeFirstLength_payloadLength, firstLengthOf_short h7, BitVec.toNat_setWidth_of_le (by decide)]
    exact hv

end

theorem exec_rxLen1_eq_acceptLogical {s : State} (hd : s.rxDrop = false) (h1 : s.bytesReceived = 1#16) (v : Byte) :
    exec (.rxLen1 v) s = acceptLogical v s := by
  rw [← exec_classifyPhase_self, phase_eq_len1.2 ⟨hd, h1⟩]
  rfl

/-- Settles O13: the two forms, told apart by bit 7. -/
theorem firstLengthByteSetsHeaderAndLength : Obligations.FirstLengthByteSetsHeaderAndLength := by
  intro v s hd h1
  rw [exec_rxLen1_eq_acceptLogical hd h1]
  exact ⟨acceptLogical_len1_long hd h1, acceptLogical_len1_short hd h1⟩

/-! ### LEN2 (R160) -/

section
variable {s : State} {v : Byte} (hd : s.rxDrop = false) (h2 : s.bytesReceived = 2#16) (h3 : s.headerLength = 3#2)
include hd h2 h3

theorem exec_rxLen2_eq_acceptLogical : exec (.rxLen2 v) s = acceptLogical v s := by
  rw [← exec_classifyPhase_self, phase_eq_len2.2 ⟨hd, h2, h3⟩]
  rfl

theorem acceptLogical_len2 : acceptLogical v s = .next (endByte (takeSecondLength v (foldRxCrc v s))) := by
  have hp := phase_eq_len2.2 ⟨hd, h2, h3⟩
  rw [acceptLogical_update (by simp [hp]) (by simp [hp]), updateByPhase_len2 hp]

variable (hl : s.payloadLength.toNat ≤ 0x7F00)
include hl

omit hd h2 h3 in
/-- The high part leaves the low byte free, so the sum is the sum of numbers. -/
theorem addLength_eq_ofNat : s.payloadLength + v.setWidth 16 = BitVec.ofNat 16 (s.payloadLength.toNat + v.toNat) := by
  rw [← addLength_toNat v hl, BitVec.ofNat_toNat, BitVec.setWidth_eq]

theorem acceptLogical_len2_within (hv : s.payloadLength.toNat + v.toNat ≤ s.maxLen) :
    acceptLogical v s = .next (
      if s.payloadLength.toNat + v.toNat = 0 ∧ s.crcEnabled = false then
        { s with payloadLength := 0#16, rxCrc := 0xFFFF#16, bytesReceived := 0#16, bytesRead := 0#16,
                 bytesWritten := 0#16, events := s.events ++ [.rxPacket s.packetCmd 0#16] }
      else
        { s with payloadLength := BitVec.ofNat 16 (s.payloadLength.toNat + v.toNat),
                 rxCrc := crc16Update s.rxCrc v, bytesReceived := 3#16 }) := by
  have hlen := addLength_toNat v hl
  rw [acceptLogical_len2 hd h2 h3, endByte_headerEnd (by simp [h2, h3]) (by simpa [hlen] using hv)]
  refine congrArg _ (if_ctx_congr ?_ (fun h => ?_) fun _ => ?_)
  · simp only [takeSecondLength_payloadLength, foldRxCrc_payloadLength, hlen]; rfl
  · simp [takeSecondLength, foldRxCrc, addLength_eq_ofNat hl, h.1]
  · simp [takeSecondLength, foldRxCrc, addLength_eq_ofNat hl, h2]

theorem acceptLogical_len2_oversize (hv : s.maxLen < s.payloadLength.toNat + v.toNat) :
    acceptLogical v s =
      .next { s with payloadLength := BitVec.ofNat 16 (s.payloadLength.toNat + v.toNat), rxCrc := 0xFFFF#16,
                     bytesReceived := 0#16, rxDrop := true, events := s.events ++ [.rxError 6#8] } := by
  rw [acceptLogical_len2 hd h2 h3, endByte_counted_oversize (by simp [h2]) (by simp [h2, h3])]
  · simp [rejectOversize, raise, takeSecondLength, foldRxCrc, addLength_eq_ofNat hl]
  · rw [takeSecondLength_payloadLength, foldRxCrc_payloadLength, addLength_toNat v hl]
    exact hv

end

/-- Settles O14: the header ends with this byte, at a length within the buffer. -/
theorem secondLengthByteIsAddedToTheLength : Obligations.SecondLengthByteIsAddedToTheLength := by
  intro v s hd h2 h3 hl hv
  rw [exec_rxLen2_eq_acceptLogical hd h2 h3, acceptLogical_len2_within hd h2 h3 hl hv]

/-- Settles O15: in both forms the length is complete with this byte and step 8's test holds. -/
theorem oversizeIsRejectedWhenTheLengthIsComplete : Obligations.OversizeIsRejectedWhenTheLengthIsComplete := by
  refine ⟨fun v s hd h1 h7 hv => ?_, fun v s hd h2 h3 hl hv => ?_⟩
  · rw [exec_rxLen1_eq_acceptLogical hd h1, acceptLogical_len1_oversize hd h1 h7 hv]
  · rw [exec_rxLen2_eq_acceptLogical hd h2 h3, acceptLogical_len2_oversize hd h2 h3 hl hv]

/-! ### The length formats (R84, R85) -/

/-- Settles O24: the formats are their bytes in the phases LEN1 and LEN2, and each form's length is its number. -/
theorem lengthRowsSetTheAnnouncedLength : Obligations.LengthRowsSetTheAnnouncedLength := by
  intro s hd h1
  have inLen1 : (s.phase == .len1) = true := beq_iff_eq.2 (phase_eq_len1.2 ⟨hd, h1⟩)
  refine ⟨fun n => ?_, fun nHi nLo => ?_⟩
  · rw [exec_lenShort, whenSelected_of inLen1, exec_rxLen1_eq_acceptLogical hd h1]
    refine ⟨rfl, fun hn hne => ?_⟩
    have hN := byteWithBit7Clear_toNat n
    rw [acceptLogical_len1_short hd h1 (bit7_byteWithBit7Clear n) (by rwa [hN]), if_neg,
      show (byteWithBit7Clear n).setWidth 16 = BitVec.ofNat 16 n.toNat from BitVec.eq_of_toNat_eq (by simp [hN])]
    rintro ⟨hz, hc⟩
    rw [hz] at hN
    exact hne.elim (fun h => h (BitVec.eq_of_toNat_eq hN.symm)) (by simp [hc])
  · rw [exec_lenLong, whenSelected_of inLen1, exec_rxLen1_eq_acceptLogical hd h1,
      acceptLogical_len1_long hd h1 (bit7_byteWithBit7Set nHi), andThen_next, andThen_next]
    have hN : ((byteWithBit7Set nHi &&& 0x7F#8).setWidth 16 <<< 8).toNat = 256 * nHi.toNat := by
      rw [← firstLengthOf_long (bit7_byteWithBit7Set nHi), firstLengthOf_byteWithBit7Set]
    have hHi := nHi.isLt
    refine ⟨(exec_rxLen2_eq_acceptLogical (by exact hd) (by rfl) (by rfl)).symm, fun hn hne => ?_⟩
    refine (acceptLogical_len2_within (by exact hd) (by rfl) (by rfl) (by rw [hN]; omega) (by rw [hN]; exact hn)).trans ?_
    rw [hN, if_neg fun h => hne.elim (· h.1) fun hc => absurd (hc.symm.trans h.2) (by decide)]

/-! ### PAYLOAD (R161) -/

/-- Settles O16: the byte's index lies within the length, hence within the buffer; the header is already whole. -/
theorem payloadByteIsStoredAtItsPosition : Obligations.PayloadByteIsStoredAtItsPosition := by
  intro v s hp hl counted
  obtain ⟨-, -, hle, hi⟩ := phase_payload hp
  have hb : s.bytesReceived.toNat < 0xFFFF := by
    have := s.headerLength.isLt
    have := s.cfg.maxPayloadLength.isLt
    simp only [State.payloadIndex, State.maxLen] at hi hl
    omega
  have hrow : exec (.rxPayload v) s =
      .next (if s.bytesReceived.toNat + 1 = s.total then completeFrame counted else counted) := by
    refine (exec_inPhase hp (by decide) (fun _ => hi.trans_le hl) v).trans ?_
    rw [updateByPhase_payload hp, endByte_counted (by exact hb) fun h => absurd hle (by simp at h; omega)]
    rfl
  refine ⟨_, hrow, rfl, ?_, fun a ha => ?_⟩
  · apply State.payloadByte_written
    split <;> rfl
  · apply State.payloadByte_other (i := s.bytesReceived.toNat - s.headerLength.toNat) (v := v) _ _ ha
    all_goals split <;> rfl

/-! ### CRC (R162) -/

/-- Settles O17: a CRC byte is the fold alone, and the header ended before it. -/
theorem crcByteIsFoldedAndNotStored : Obligations.CrcByteIsFoldedAndNotStored := by
  intro v s hp hl counted
  obtain ⟨-, hc, hle, hlt⟩ := phase_crc hp
  have := s.headerLength.isLt
  refine ⟨hc, (exec_inPhase hp (by decide) nofun v).trans ?_, rfl⟩
  rw [updateByPhase_crc hp, endByte_counted (by simp; omega) fun h => absurd hle (by simp at h; omega)]
  rfl

/-! ### OVERRUN (R163) -/

/-- Settles O18: the count is past the total, so one more is past it still, and at the limit the total is far below. -/
theorem overrunByteNeverCompletes : Obligations.OverrunByteNeverCompletes := by
  intro v s hp hl
  obtain ⟨-, hle, -, -⟩ := phase_overrun hp
  have hh := s.headerLength.isLt
  have hc : crcLength s.crcEnabled ≤ 2 := by cases s.crcEnabled <;> decide
  simp only [State.total] at hle
  refine (exec_inPhase hp (by decide) nofun v).trans ?_
  rw [updateByPhase_overrun hp, endByte_neither (countTest_eq_neither.2 ?_)]
  · obtain ⟨hlt, e⟩ | ⟨hlimit, e⟩ := countByte_cases (foldRxCrc v s) <;> rw [e]
    · rw [if_neg fun h => by simp [h] at hlt]; rfl
    · rw [foldRxCrc_bytesReceived] at hlimit
      rw [if_pos hlimit, ← hlimit]; rfl
  · rw [countByte_toNat, countByte_total]
    simp only [countByte_headerLength, foldRxCrc_headerLength, foldRxCrc_bytesReceived, State.total,
      foldRxCrc_payloadLength, foldRxCrc_crcEnabled]
    omega

/-! ### DROP (R156) -/

/-- While dropping, a raw byte that is no unescaped boundary moves at most the escape flag. -/
theorem receiveRaw_dropping {b : Byte} {s : State} (hd : s.rxDrop = true)
    (hb : (b == 0x7E#8 && !s.unEscaping) = false) :
    receiveRaw b s = .next { s with unEscaping := (decodeByte s.unEscaping b).1 } := by
  have hdrop : ∀ f, State.phase { s with unEscaping := f } = .drop := fun f => phase_eq_drop.2 hd
  unfold receiveRaw acceptRaw
  rw [if_neg (by simpa using hb)]
  split
  · rename_i e; rw [e]
  · rename_i e; rw [e, acceptLogical_drop (hdrop _)]

/-- Settles O19: by induction on the raw bytes, the flag of each step being the escape decoder's. -/
theorem dropLastsUntilAnUnescapedBoundary : Obligations.DropLastsUntilAnUnescapedBoundary := by
  refine ⟨fun v s hd => ?_, fun raw => ?_⟩
  · have hp := phase_eq_drop.2 hd
    exact (hp ▸ exec_classifyPhase_self v s).trans (acceptLogical_drop hp v)
  · induction raw with
    | nil => exact fun _ _ _ => rfl
    | cons b raw ih =>
      intro s hd hb
      obtain ⟨hfirst, hrest⟩ := Bool.or_eq_false_iff.1 hb
      rw [receiveAll_cons, receiveRaw_dropping hd hfirst, andThen_next,
        ih { s with unEscaping := (decodeByte s.unEscaping b).1 } hd hrest]
      rfl

/-! ### The rows of the tests after the count (R165 to R167) -/

/-- Settles O20: the row's test is step 8's. -/
theorem oversizeRowRejectsTheFrame : Obligations.OversizeRowRejectsTheFrame := by
  intro s hc hl
  rw [exec_rxOversize, whenSelected_of (beq_iff_eq.2 (countTest_eq_oversize.2 ⟨hc, hl⟩))]
  rfl

theorem completionEvent_eq_ite (s : State) :
    completionEvent s =
      if s.crcEnabled = true ∧ s.rxCrc ≠ 0#16 then .rxError 7#8 else .rxPacket s.packetCmd s.payloadLength := by
  by_cases hk : s.rxCrc = 0#16 <;> cases hc : s.crcEnabled <;> simp [completionEvent, frameAccepted, hc, hk]

/-- Settles O21: the row's test is step 9's, and the event is the verdict on the residue. -/
theorem completeRowReportsOneEvent : Obligations.CompleteRowReportsOneEvent := by
  intro s ht hl
  rw [exec_rxComplete, whenSelected_of (beq_iff_eq.2 (countTest_eq_complete_iff.2 (.inl ⟨ht, hl⟩))),
    ← completionEvent_eq_ite]
  rfl

/-- Settles O27: RESET writes every register of the table and appends to no output. -/
theorem resetLeavesTheResetTable : Obligations.ResetLeavesTheResetTable :=
  fun _ _ => ⟨_, rfl, rfl, rfl, rfl, rfl, rfl, rfl, rfl, rfl, rfl, rfl, rfl, rfl, rfl, rfl, rfl,
    phase_eq_idle.2 ⟨rfl, rfl⟩⟩

end Sys2Proof.Machine
end

section
/-! PROOFS. Frames over all 36 rows: what a row of the decoder and what any other row can do, said once, and from it the writers of
each register (10_state.md R20), the one index stored to (20_memory.md R61), the events (60_exceptions.md R227, R228) and the
decoder's place within its frame (10_state.md R37 (g)). -/

namespace Sys2Proof.Machine

open Sys2Proof.Safety

/-! ### Everything a row of the decoder can do -/

/-- The state after a first length byte of the long form. -/
def afterHighPart (v : Byte) (s : State) : State :=
  { s with headerLength := 3#2, payloadLength := (v &&& 0x7F#8).setWidth 16 <<< 8, rxCrc := crc16Update s.rxCrc v,
           bytesReceived := 2#16 }

theorem phase_afterHighPart {s : State} (hp : s.phase = .len1) (v : Byte) : (afterHighPart v s).phase = .len2 :=
  phase_eq_len2.2 ⟨(phase_eq_len1.1 hp).1, rfl, rfl⟩

/-- The transitions of the decoder's rows; `completes` says whether the row is one that can reach COMPLETE. -/
inductive DecoderStep (completes : Bool) (s : State) : State → Prop
  | boundary : DecoderStep completes s (boundaryReset s)
  | escape : DecoderStep completes s { s with unEscaping := true }
  | dropped : DecoderStep completes s s
  | logical {v : Byte} {f : Bool} {t : State} (hc : completes = true)
      (e : acceptLogical v { s with unEscaping := f } = .next t) : DecoderStep completes s t
  | longLength {v w : Byte} {t : State} (hc : completes = true) (hp : s.phase = .len1)
      (first : acceptLogical v s = .next (afterHighPart v s)) (second : acceptLogical w (afterHighPart v s) = .next t) :
      DecoderStep completes s t
  | oversize (h : s.countTest = .oversize) : DecoderStep completes s (rejectOversize s)
  | complete (hc : completes = true) (h : s.countTest = .complete) : DecoderStep completes s (completeFrame s)

section
variable {s t : State}

theorem acceptLogical_step {v : Byte} (e : acceptLogical v s = .next t) : DecoderStep true s t :=
  .logical (f := s.unEscaping) rfl e

theorem receiveRaw_step {b : Byte} (e : receiveRaw b s = .next t) : DecoderStep true s t := by
  obtain ⟨-, -, h⟩ | ⟨-, h⟩ | ⟨-, -, h⟩ | ⟨-, -, -, h⟩ := receiveRaw_cases b s <;> rw [h] at e
  · cases e; exact .boundary
  · cases e; exact .escape
  · exact .logical rfl e
  · exact .logical rfl e

theorem lenLong_step {nHi : BitVec 7} {nLo : Byte} (e : exec (.lenLong nHi nLo) s = .next t) : DecoderStep true s t := by
  obtain ⟨u, hu, ht⟩ := andThen_eq_next.1 e
  obtain ⟨hp, hu⟩ := whenSelected_next.1 hu
  have hp : s.phase = .len1 := eq_of_beq hp
  obtain ⟨hd, h1⟩ := phase_eq_len1.1 hp
  have first : acceptLogical (byteWithBit7Set nHi) s = .next (afterHighPart (byteWithBit7Set nHi) s) :=
    acceptLogical_len1_long hd h1 (bit7_byteWithBit7Set nHi)
  rw [first] at hu
  cases hu
  exact .longLength rfl hp first ht

/-- The inversion of the decoder's 27 rows. -/
theorem exec_decoderStep {i : Instr} (hr : isReceive i = true) (e : exec i s = .next t) :
    DecoderStep (mayComplete i) s t := by
  have phaseRow : ∀ {p : Phase} {v : Byte}, exec (classifyPhase p v) s = .next t → DecoderStep true s t :=
    fun h => acceptLogical_step (whenSelected_next.1 (exec_classifyPhase _ _ s ▸ h)).2
  cases i with
  | rxFlag => cases (whenSelected_next.1 e).2; exact .boundary
  | rxEsc => cases e; exact .escape
  | rxUnesc b => exact receiveRaw_step (whenSelected_next.1 (exec_rxUnesc b s ▸ e)).2
  | rxLit b => exact receiveRaw_step (whenSelected_next.1 (exec_rxLit b s ▸ e)).2
  | escPair7E => exact .logical rfl (exec_escPair7E s ▸ e)
  | escPair7D => exact .logical rfl (exec_escPair7D s ▸ e)
  | lenLong nHi nLo => exact lenLong_step e
  | lenShort | cmdRequest | cmdReply | cmdStd80 | cmdStd81 | cmdStd82 | cmdStd83 | cmdStd84 | cmdStd85 | cmdStd86 =>
    exact acceptLogical_step (whenSelected_next.1 e).2
  | rxCmd v => exact phaseRow (p := .idle) e
  | rxLen1 v => exact phaseRow (p := .len1) e
  | rxLen2 v => exact phaseRow (p := .len2) e
  | rxPayload v => exact phaseRow (p := .payload) e
  | rxCrc v => exact phaseRow (p := .crc) e
  | rxOverrun v => exact phaseRow (p := .overrun) e
  | rxDrop v => cases (whenSelected_next.1 e).2; exact .dropped
  | rxOversize =>
    obtain ⟨h, e⟩ := whenSelected_next.1 e
    cases e
    exact .oversize (eq_of_beq h)
  | rxComplete =>
    obtain ⟨h, e⟩ := whenSelected_next.1 e
    cases e
    exact .complete rfl (eq_of_beq h)
  | rxByte b => exact receiveRaw_step e
  | encEsc7E | encEsc7D | encLit | reset | bufAppend | txFrame | encByte | decByte | crc16Update => cases hr

/-! ### Everything another row can do -/

/-- The transitions of the rows outside the decoder. -/
inductive OtherStep (s : State) : Instr → State → Prop
  | emit {i : Instr} (hi : mayEmit i = true) (bs : List Byte) : OtherStep s i (emitRaw bs s)
  | reset {c : Bool} {t : State} (e : execReset c s = .next t) : OtherStep s (.reset c) t
  | append (b : Byte) : OtherStep s (.bufAppend b) (appendByte b s)
  | frame {cmd : Byte} (hfit : s.bytesWritten.toNat ≤ s.maxLen) (crc : Word16) (bs : List Byte) :
      OtherStep s (.txFrame cmd)
        { s with packetCmd := cmd, payloadLength := 0#16, bytesWritten := 0#16, txCrc := crc, emitted := s.emitted ++ bs }
  | decByte {b : Byte} (f : Bool) (r : Result) : OtherStep s (.decByte b) (answer r { s with unEscaping := f })
  | crc16Update {c : Word16} {b : Byte} (r : Result) : OtherStep s (.crc16Update c b) (answer r s)

theorem exec_otherStep {i : Instr} (hr : isReceive i = false) (e : exec i s = .next t) : OtherStep s i t := by
  cases i with
  | encEsc7E | encEsc7D | encByte => cases e; exact .emit rfl _
  | encLit b => cases (whenSelected_next.1 e).2; exact .emit rfl _
  | reset c => exact .reset e
  | bufAppend b => cases e; exact .append b
  | txFrame cmd =>
    have hfit : s.bytesWritten.toNat ≤ s.maxLen := by
      by_contra h
      rw [show exec (.txFrame cmd) s = _ from if_neg h] at e
      cases e
    rw [txFrameEmitsTheWholeFrame cmd s hfit] at e
    cases e
    exact .frame hfit _ _
  | decByte b => cases e; exact .decByte _ _
  | crc16Update c b => cases e; exact .crc16Update _
  | rxFlag | rxEsc | rxUnesc | rxLit | escPair7E | escPair7D | lenShort | lenLong | cmdRequest | cmdReply | cmdStd80
  | cmdStd81 | cmdStd82 | cmdStd83 | cmdStd84 | cmdStd85 | cmdStd86 | rxCmd | rxLen1 | rxLen2 | rxPayload | rxCrc
  | rxOverrun | rxDrop | rxOversize | rxComplete | rxByte => cases hr

end

end Sys2Proof.Machine
end

section
/-! PROOFS. The writers of each register over all rows (10_state.md R20) and the one index of the buffer the decoder stores to
(20_memory.md R61, R74). -/

namespace Sys2Proof.Machine

open Sys2Proof.Safety

/-- What a row of the decoder leaves as it was: everything outside the decoder, the cursors but for COMPLETE, each field of the
header outside its own phase, and the buffer but for its index in phase PAYLOAD. -/
structure DecoderRowKeeps (completes : Bool) (s t : State) : Prop where
  outside : DecoderKeeps s t
  cursors : t.bytesRead = s.bytesRead ∧ t.bytesWritten = s.bytesWritten ∨ completes = true ∧ CompletedFrame s t
  packetCmd : s.phase ≠ .idle → t.packetCmd = s.packetCmd
  headerLength : s.phase ≠ .len1 → t.headerLength = s.headerLength
  payloadLength : s.phase ≠ .len1 → s.phase ≠ .len2 → t.payloadLength = s.payloadLength
  payload : t.payload = s.payload ∨ s.phase = .payload ∧ ∃ v, t.payload = Memory.write s.payload s.payloadIndex v

/-- A transition that writes nothing of all this. -/
theorem DecoderRowKeeps.of_same {completes : Bool} {s t : State} (outside : DecoderKeeps s t)
    (hr : t.bytesRead = s.bytesRead) (hw : t.bytesWritten = s.bytesWritten) (hc : t.packetCmd = s.packetCmd)
    (hh : t.headerLength = s.headerLength) (hl : t.payloadLength = s.payloadLength) (hp : t.payload = s.payload) :
    DecoderRowKeeps completes s t :=
  ⟨outside, .inl ⟨hr, hw⟩, fun _ => hc, fun _ => hh, fun _ _ => hl, .inl hp⟩

/-- A logical byte from a state with the same cursors and events. -/
theorem cursors_of_logical {completes : Bool} {s u t : State} (k : CursorsKeptOrComplete u t)
    (hc : completes = true) (hr : u.bytesRead = s.bytesRead) (hw : u.bytesWritten = s.bytesWritten)
    (he : u.events = s.events) :
    t.bytesRead = s.bytesRead ∧ t.bytesWritten = s.bytesWritten ∨ completes = true ∧ CompletedFrame s t :=
  k.imp (fun ⟨kr, kw⟩ => ⟨kr.trans hr, kw.trans hw⟩) fun c => ⟨hc, completedFrame_congr c he⟩

theorem DecoderStep.keeps {completes : Bool} {s t : State} (h : DecoderStep completes s t) :
    DecoderRowKeeps completes s t := by
  cases h with
  | boundary | escape | dropped | oversize =>
    exact .of_same ⟨rfl, rfl, rfl, rfl, rfl, rfl, rfl⟩ rfl rfl rfl rfl rfl rfl
  | complete hc _ =>
    exact ⟨⟨rfl, rfl, rfl, rfl, rfl, rfl, rfl⟩, .inr ⟨hc, completeFrame_completes s⟩, fun _ => rfl, fun _ => rfl,
      fun _ _ => rfl, .inl rfl⟩
  | logical hc e =>
    have k := acceptLogical_keeps e
    exact ⟨.trans (by exact ⟨rfl, rfl, rfl, rfl, rfl, rfl, rfl⟩) k.outside, cursors_of_logical k.cursors hc rfl rfl rfl,
      k.packetCmd, k.headerLength, k.payloadLength, k.payload.imp id fun ⟨hp, hw⟩ => ⟨hp, _, hw⟩⟩
  | @longLength v w _ hc hp first second =>
    have k := acceptLogical_keeps second
    have hlen2 := phase_afterHighPart hp v
    exact ⟨.trans (by exact ⟨rfl, rfl, rfl, rfl, rfl, rfl, rfl⟩) k.outside, cursors_of_logical k.cursors hc rfl rfl rfl,
      fun _ => k.packetCmd (by simp [hlen2]), fun h => absurd hp h, fun h => absurd hp h,
      .inl (k.payload.resolve_right (by simp [hlen2]))⟩

theorem appendByte_eq (b : Byte) (s : State) :
    appendByte b s = { s with
      payload := (appendByte b s).payload
      bytesWritten := (appendByte b s).bytesWritten
      events := (appendByte b s).events } := by
  obtain ⟨-, e⟩ | ⟨-, e⟩ := appendByte_cases b s <;> rw [e] <;> rfl

/-- Settles O41: a decoder's row keeps what DecoderRowKeeps lists; of the other rows each writes what its transition shows, and the
clauses about it are the ones its kind leaves open. -/
theorem registersAreWrittenOnlyByTheirWriters : Obligations.RegistersAreWrittenOnlyByTheirWriters := by
  intro i s t e
  cases hr : isReceive i with
  | true =>
    have k := (exec_decoderStep hr e).keeps
    have ho := k.outside
    exact ⟨ho.cfg, ho.pending, fun _ => ⟨ho.crcEnabled, ho.resetCount⟩, fun _ _ => ho.txCrc, fun _ => ho.emitted,
      fun _ => ho.results, fun _ _ _ => k.cursors.imp And.right id, fun _ => k.cursors.imp And.left id,
      fun _ _ => k.packetCmd, fun _ => k.headerLength, fun _ _ => k.payloadLength, fun _ h => absurd h (by decide),
      fun _ h => absurd h (by decide)⟩
  | false =>
    cases exec_otherStep hr e with
    | emit hi bs => simp [hi]
    | reset e => cases e; simp [isReset]
    | append b => rw [appendByte_eq]; simp [isAppend]
    | frame hfit crc bs => simp [isTxFrame, mayEmit]
    | decByte f r => simp [isDecByte, mayAnswer]
    | crc16Update r => simp [mayAnswer]

/-- Settles O42: of the decoder only phase PAYLOAD stores, at its index; of the other rows only the two that are left out. -/
theorem onlyTheDecodersIndexIsStoredTo : Obligations.OnlyTheDecodersIndexIsStoredTo := by
  intro i s t e hreset happend a ha
  cases hr : isReceive i with
  | true =>
    have k := (exec_decoderStep hr e).keeps
    obtain hp | ⟨hp, v, hw⟩ := k.payload
    · exact State.payloadByte_congr hp k.outside.resetCount a
    · exact State.payloadByte_other hw k.outside.resetCount (ha.resolve_left (absurd hp))
  | false =>
    cases exec_otherStep hr e with
    | emit | frame | decByte | crc16Update => rfl
    | reset => cases hreset
    | append => cases happend

end Sys2Proof.Machine
end

section
/-! PROOFS. The decoder's place within its frame (10_state.md R37 (g), 42_packet_decoder.md R171, 70_reset_and_hazards.md R258). -/

namespace Sys2Proof.Safety

open Sys2Proof.Machine

variable {s t : State}

theorem WithinFrame.of_start (h : t.bytesReceived.toNat < 2) : WithinFrame t := fun h2 => absurd h2 (by omega)

theorem WithinFrame.of_zero (h : t.bytesReceived = 0#16) : WithinFrame t := .of_start (by simp [h])

/-- Only the count and what the total is made of matter. -/
theorem WithinFrame.congr (h : WithinFrame s) (hb : t.bytesReceived = s.bytesReceived) (ht : t.total = s.total) :
    WithinFrame t := by
  unfold WithinFrame
  rw [hb, ht]
  exact h

/-- The total of a state whose length is bounded, hence also a count below it. -/
theorem total_le (h : s.payloadLength.toNat ≤ 32767) : s.total ≤ 32772 := by
  have := s.headerLength.isLt
  have : crcLength s.crcEnabled ≤ 2 := by cases s.crcEnabled <;> decide
  simp only [State.total]
  omega

/-- A byte that brings the count at most to the total: the tests take the decoder back to the start where it is reached. -/
theorem endByte_withinFrame (hlt : s.bytesReceived.toNat < 0xFFFF)
    (h : 2 ≤ s.bytesReceived.toNat + 1 → s.bytesReceived.toNat + 1 ≤ s.total) : WithinFrame (endByte s) := by
  obtain ⟨hn, e⟩ | ⟨-, e⟩ | ⟨-, e⟩ := endByte_cases s <;> rw [e]
  · have hcount := countByte_toNat s
    have hne := (countTest_eq_neither.1 hn).2
    intro h2
    rw [countByte_total] at hne ⊢
    omega
  · exact .of_zero rfl
  · exact .of_zero rfl

/-- After the update of its phase the frame still has room for the byte being counted. -/
theorem updateByPhase_room (hs : SoundState s) (hw : WithinFrame s) (v : Byte)
    (h2 : 2 ≤ s.bytesReceived.toNat + 1) : s.bytesReceived.toNat + 1 ≤ (updateByPhase v s).total := by
  have hn := headerLength_toNat hs.headerLength
  cases hp : s.phase with
  | drop =>
    have := hs.dropIsIdle (phase_eq_drop.1 hp)
    simp [this] at h2
  | idle => simp [(phase_eq_idle.1 hp).2] at h2
  | len1 =>
    have := headerLength_toNat (headerLengthOf_or v)
    rw [updateByPhase_len1 hp]
    simp [State.total, (phase_eq_len1.1 hp).2]
    omega
  | len2 =>
    obtain ⟨-, hb, hh⟩ := phase_eq_len2.1 hp
    rw [updateByPhase_len2 hp]
    simp [State.total, hb, hh]
    omega
  | payload =>
    rw [updateByPhase_payload hp]
    exact hw (phase_payload hp).2.1
  | crc =>
    have := (phase_crc hp).2.2.1
    rw [updateByPhase_crc hp]
    exact hw (by omega)
  | overrun =>
    rw [updateByPhase_overrun hp]
    exact hw (phase_overrun hp).2.2.1

theorem acceptLogical_withinFrame {v : Byte} (hs : SoundState s) (hw : WithinFrame s)
    (e : acceptLogical v s = .next t) : WithinFrame t := by
  have hlt : s.bytesReceived.toNat < 0xFFFF := by
    have := total_le hs.payloadLength
    have : 2 ≤ s.bytesReceived.toNat → s.bytesReceived.toNat < s.total := hw
    omega
  obtain ⟨-, rfl⟩ | ⟨-, rfl⟩ := acceptLogical_next e
  · exact hw
  · refine endByte_withinFrame ?_ ?_ <;> rw [updateByPhase_bytesReceived]
    · exact hlt
    · exact updateByPhase_room hs hw v

theorem decoderStep_withinFrame {completes : Bool} (hs : SoundState s) (hw : WithinFrame s)
    (h : DecoderStep completes s t) : WithinFrame t := by
  cases h with
  | boundary | oversize | complete => exact .of_zero rfl
  | escape | dropped => exact hw.congr rfl rfl
  | @logical v f _ _ e =>
    have hwf : WithinFrame { s with unEscaping := f } := hw.congr rfl rfl
    exact acceptLogical_withinFrame (hs.withFlag f) hwf e
  | @longLength v w _ _ _ first second =>
    obtain ⟨u, hu, hsu⟩ := acceptLogical_goesOn v hs
    obtain rfl : u = afterHighPart v s := Host.Outcome.next.inj (hu.symm.trans first)
    exact acceptLogical_withinFrame hsu (acceptLogical_withinFrame hs hw first) second

theorem otherStep_withinFrame {i : Instr} (hw : WithinFrame s) (h : OtherStep s i t)
    (htx : isTxFrame i = false ∨ s.bytesReceived.toNat < 2) : WithinFrame t := by
  cases h with
  | emit | decByte | crc16Update => exact hw.congr rfl rfl
  | reset e => cases e; exact .of_zero rfl
  | append b => rw [appendByte_eq]; exact hw.congr rfl rfl
  | frame => exact .of_start (htx.resolve_left (by simp [isTxFrame]))

/-- Settles O48: each kind of row keeps the decoder below its total, which is at most 32772, and OVERRUN is past it. -/
theorem decoderStaysWithinItsFrame : Obligations.DecoderStaysWithinItsFrame := by
  refine ⟨fun i s t hs hw e htx => ?_, fun s _ hw hp => ?_⟩
  · have ht : WithinFrame t := by
      cases hr : isReceive i with
      | true => exact decoderStep_withinFrame hs hw (exec_decoderStep hr e)
      | false => exact otherStep_withinFrame hw (exec_otherStep hr e) htx
    have htotal := total_le ((exec_keepsSound i hs).sound e).payloadLength
    have hlt : 2 ≤ t.bytesReceived.toNat → t.bytesReceived.toNat < t.total := ht
    exact ⟨ht, by omega⟩
  · obtain ⟨-, hle, h2, -⟩ := phase_overrun hp
    exact absurd (hw h2) (by omega)

/-! ### TX.FRAME in mid-frame (R258) -/

/-- Past the header and at the total or beyond, the decoder is in OVERRUN. -/
theorem phase_eq_overrun (hd : s.rxDrop = false) (h2 : 2 ≤ s.bytesReceived.toNat)
    (hlen2 : ¬(s.bytesReceived = 2#16 ∧ s.headerLength = 3#2)) (ht : s.total ≤ s.bytesReceived.toNat) :
    s.phase = .overrun := by
  have hhl := s.headerLength.isLt
  have hh : s.headerLength.toNat ≤ s.bytesReceived.toNat := by
    by_contra hlt
    exact hlen2 ⟨BitVec.eq_of_toNat_eq (by simp; omega), BitVec.eq_of_toNat_eq (by simp; omega)⟩
  simp only [State.total, crcLength] at ht
  rw [phase_past_header hd h2 hh, if_neg, if_neg]
  · rintro ⟨hc, hlt⟩
    rw [if_pos hc] at ht
    omega
  · simp only [State.payloadIndex]
    omega

/-- What TX.FRAME leaves of the decoder: all but the length. -/
theorem exec_txFrame_decoder (hfit : s.bytesWritten.toNat ≤ s.maxLen) (cmd : Byte) :
    ∃ t, exec (.txFrame cmd) s = .next t ∧ t.payloadLength = 0#16 ∧ t.headerLength = s.headerLength ∧
      t.crcEnabled = s.crcEnabled ∧ t.bytesReceived = s.bytesReceived ∧ t.rxCrc = s.rxCrc ∧ t.rxDrop = s.rxDrop ∧
      t.events = s.events :=
  ⟨_, txFrameEmitsTheWholeFrame cmd s hfit, rfl, rfl, rfl, rfl, rfl, rfl, rfl⟩

/-- Settles O43: TX.FRAME leaves a length of zero, so the count has reached the new total. -/
theorem txFrameInMidFrameOverrunsTheDecoder : Obligations.TxFrameInMidFrameOverrunsTheDecoder := by
  intro cmd s hfit hd h2 hlen2 hcount
  obtain ⟨t, e, hl, hh, hc, hb, hcrc, hdrop, hev⟩ := exec_txFrame_decoder hfit cmd
  have htotal : t.total = s.headerLength.toNat + crcLength s.crcEnabled := by simp [State.total, hl, hh, hc]
  refine ⟨t, e, phase_eq_overrun (hdrop.trans hd) ?_ ?_ ?_, htotal, hb, hcrc, hev⟩
  · rwa [hb]
  · rwa [hb, hh]
  · rwa [hb, htotal]

end Sys2Proof.Safety
end

section
/-! PROOFS. The events of one RX.BYTE (60_exceptions.md R227, R228). -/

namespace Sys2Proof.Machine

/-- The table of events: none, a packet, code 7 or code 6, each with the state it leaves. -/
def EventOfTable (s t : State) : Prop :=
  t.events = s.events ∨
  (∃ n cmd, t.events = s.events ++ [.rxPacket cmd n] ∧ cmd = t.packetCmd ∧ n = t.payloadLength ∧
    t.bytesReceived = 0#16 ∧ t.rxCrc = 0xFFFF#16 ∧ t.rxDrop = false ∧ t.bytesRead = 0#16 ∧ t.bytesWritten = 0#16) ∨
  (t.events = s.events ++ [.rxError 7#8] ∧ s.crcEnabled = true ∧
    t.bytesReceived = 0#16 ∧ t.rxCrc = 0xFFFF#16 ∧ t.rxDrop = false ∧ t.bytesRead = 0#16 ∧ t.bytesWritten = 0#16) ∨
  (t.events = s.events ++ [.rxError 6#8] ∧ s.maxLen < t.payloadLength.toNat ∧
    t.bytesReceived = 0#16 ∧ t.rxCrc = 0xFFFF#16 ∧ t.rxDrop = true ∧ t.bytesRead = s.bytesRead ∧
    t.bytesWritten = s.bytesWritten ∧ t.payload = s.payload)

/-- COMPLETE (R167, R227), the byte having been folded and counted since `s`. -/
theorem completeFrame_eventOfTable {s u : State} (hd : u.rxDrop = false) (he : u.events = s.events)
    (hc : u.crcEnabled = s.crcEnabled) : EventOfTable s (completeFrame u) := by
  have hev := completeFrame_events u
  rw [completionEvent_eq_ite, he, hc] at hev
  split at hev
  · rename_i h
    exact .inr (.inr (.inl ⟨hev, h.1, rfl, rfl, hd, rfl, rfl⟩))
  · exact .inr (.inl ⟨_, _, hev, rfl, rfl, rfl, rfl, hd, rfl, rfl⟩)

theorem updateByPhase_payload_of_ne {s : State} (h : s.phase ≠ .payload) (v : Byte) :
    (updateByPhase v s).payload = s.payload := by
  cases hp : s.phase with
  | payload => exact absurd hp h
  | drop | idle | len1 | len2 | crc | overrun => simp [updateByPhase, hp]

/-- In phase PAYLOAD the header ended before, so step 8's test does not hold after the count. -/
theorem payload_not_oversize {s : State} (hp : s.phase = .payload) (v : Byte) :
    (countByte (updateByPhase v s)).countTest ≠ .oversize := by
  intro h
  obtain ⟨-, -, hle, -⟩ := phase_payload hp
  have hh := s.headerLength.isLt
  have hcount := (countTest_eq_oversize.1 h).1
  rw [countByte_toNat, countByte_headerLength, updateByPhase_payload hp] at hcount
  simp only [storePayload_bytesReceived, foldRxCrc_bytesReceived, storePayload_headerLength,
    foldRxCrc_headerLength] at hcount
  omega

theorem acceptLogical_eventOfTable {v : Byte} {s t : State} (e : acceptLogical v s = .next t) : EventOfTable s t := by
  obtain ⟨-, rfl⟩ | ⟨hd, rfl⟩ := acceptLogical_next e
  · exact .inl rfl
  obtain ⟨-, h⟩ | ⟨htest, h⟩ | ⟨-, h⟩ := endByte_cases (updateByPhase v s) <;> rw [h]
  · exact .inl (by simp)
  · have hp : s.phase ≠ .payload := fun hp => payload_not_oversize hp v htest
    have hl := (countTest_eq_oversize.1 htest).2
    rw [countByte_maxLen, updateByPhase_maxLen] at hl
    exact .inr (.inr (.inr ⟨by simp, by simpa using hl, by simp, by simp, by simp, by simp, by simp,
      by simp [updateByPhase_payload_of_ne hp]⟩))
  · have hdrop : s.rxDrop = false := by simpa using mt phase_eq_drop.2 hd
    exact completeFrame_eventOfTable (by simpa using hdrop) (by simp) (by simp)

/-- The escape flag stands nowhere in the table. -/
theorem EventOfTable.of_unEscaping {s t : State} {f : Bool} (h : EventOfTable { s with unEscaping := f } t) :
    EventOfTable s t := by
  unfold EventOfTable at h ⊢
  exact h

/-- Settles O40: a boundary and an escape raise nothing; a logical byte raises what steps 8 and 9 do. -/
theorem eventsLeaveTheStateOfTheirTable : Obligations.EventsLeaveTheStateOfTheirTable := by
  intro b s t e
  change EventOfTable s t
  rw [exec_rxByte] at e
  obtain ⟨-, -, h⟩ | ⟨-, h⟩ | ⟨-, -, h⟩ | ⟨-, -, -, h⟩ := receiveRaw_cases b s <;> rw [h] at e
  · cases e; exact .inl rfl
  · cases e; exact .inl rfl
  · exact (acceptLogical_eventOfTable e).of_unEscaping
  · exact (acceptLogical_eventOfTable e).of_unEscaping

end Sys2Proof.Machine
end

section
/-! PROOFS. The environment's own actions (44_system_ops.md R203, R207, R208; log 16). -/

namespace Sys2Proof.Machine

/-! ### serialize -/

/-- The state `n` appends in order leave, full or not. -/
theorem execAll_bufAppend (bs : List Byte) (s : State) :
    execAll (bs.map Instr.bufAppend) s = .next (bs.foldl (fun t b => appendByte b t) s) := by
  induction bs generalizing s with
  | nil => rfl
  | cons b bs ih => exact ih (appendByte b s)

/-- Appends that fit: the cursor grows by their number, nothing is raised, and each index reads its byte or as before. -/
theorem appendAll_fits (bs : List Byte) {s : State} (h : s.bytesWritten.toNat + bs.length ≤ s.maxLen) :
    let t := bs.foldl (fun t b => appendByte b t) s
    t.bytesWritten.toNat = s.bytesWritten.toNat + bs.length ∧ t.events = s.events ∧
    (∀ a < s.bytesWritten.toNat, t.payloadByte a = s.payloadByte a) ∧
    ∀ k < bs.length, t.payloadByte (s.bytesWritten.toNat + k) = bs.getD k 0#8 := by
  induction bs generalizing s with
  | nil => exact ⟨rfl, rfl, fun _ _ => rfl, nofun⟩
  | cons b bs ih =>
    rw [List.length_cons] at h
    obtain ⟨-, hcase⟩ := appendStoresAtTheWriteCursor b s
    obtain ⟨u, hu, hup, hcursor, hbyte, hother⟩ := hcase (by omega)
    rw [exec_bufAppend] at hu
    obtain rfl := Host.Outcome.next.inj hu
    have hmax : (appendByte b s).maxLen = s.maxLen := by rw [hup]; rfl
    have hev : (appendByte b s).events = s.events := by rw [hup]
    obtain ⟨h1, h2, h3, h4⟩ := ih (s := appendByte b s) (by rw [hcursor, hmax]; omega)
    simp only [List.foldl_cons, List.length_cons]
    refine ⟨by rw [h1, hcursor]; omega, h2.trans hev, fun a ha => ?_, fun k hk => ?_⟩
    · rw [h3 a (by omega), hother a (by omega)]
    · cases k with
      | zero => rw [Nat.add_zero, h3 _ (by omega), hbyte]; rfl
      | succ k =>
        have := h4 k (by omega)
        rwa [hcursor, show s.bytesWritten.toNat + 1 + k = s.bytesWritten.toNat + (k + 1) by omega] at this

/-- Settles O54: the two cases of `serialize`; where it fits it is the fold that the appends are. -/
theorem serializeIsAllOrNothing : Obligations.SerializeIsAllOrNothing := by
  refine fun bs s => ⟨fun h => congrArg Host.Outcome.next (if_pos h), fun h => ?_⟩
  have hfold : serializeBytes bs s = bs.foldl (fun t b => appendByte b t) s := if_neg (by omega)
  obtain ⟨h1, h2, -, h4⟩ := appendAll_fits bs h
  exact ⟨_, congrArg Host.Outcome.next hfold, execAll_bufAppend bs s, h1, h2, h4⟩

/-! ### Cursor reads and the Dispatcher's writes -/

/-- Adding a number to the cursor is adding it to its value. -/
theorem bytesRead_add (s : State) (n : Nat) :
    s.bytesRead + BitVec.ofNat 16 n = BitVec.ofNat 16 (s.bytesRead.toNat + n) := by
  apply BitVec.eq_of_toNat_eq
  simp

/-- What a read that moves the cursor by `moved` and returns `n` bytes leaves. -/
def readState (n moved : Nat) (s : State) : State :=
  { s with bytesRead := BitVec.ofNat 16 (s.bytesRead.toNat + moved),
           results := s.results ++ [.bytes (s.payloadSlice s.bytesRead.toNat n)] }

theorem readCursor_within {n : Nat} {s : State} (h : s.bytesRead.toNat + n ≤ s.readBound) :
    readCursor n s = .next (readState n n s) := by
  rw [readCursor, if_pos h, bytesRead_add]
  rfl

theorem readCursor_past {n : Nat} {s : State} (h : s.readBound < s.bytesRead.toNat + n) :
    readCursor n s = .refused .readPastPacket := if_neg (by omega)

theorem readTerminated_found {n : Nat} {s : State} (hn : s.bytesRead.toNat + n < s.readBound)
    (hz : s.payloadByte (s.bytesRead.toNat + n) = 0#8)
    (hb : ∀ k < n, s.payloadByte (s.bytesRead.toNat + k) ≠ 0#8) :
    readTerminated s = .next (readState n (n + 1) s) := by
  unfold readTerminated
  rw [stringLength_eq_some (by omega) hz hb]
  simp only [bytesRead_add]
  rfl

theorem readTerminated_missing {s : State}
    (h : ∀ i, s.bytesRead.toNat ≤ i → i < s.readBound → s.payloadByte i ≠ 0#8) :
    readTerminated s = .refused .readPastPacket := by
  unfold readTerminated
  rw [stringLength_eq_none fun k hk => h _ (by omega) (by omega)]

/-- Settles O55: every read is within the bound or past it; the Dispatcher's writes are one register each. -/
theorem cursorReadsAndDispatcherWrites : Obligations.CursorReadsAndDispatcherWrites := by
  intro s cursor bound reads
  exact ⟨readCursor_within, readCursor_past, readCursor_within, readCursor_past, readCursor_within, readCursor_past,
    fun _ => readCursor_within, fun _ => readCursor_past, fun _ => readTerminated_found, readTerminated_missing, rfl,
    fun h => congrArg _ (if_neg h), fun h => congrArg _ (if_pos h)⟩

end Sys2Proof.Machine
end

section
/-! PROOFS. A frame as its logical bytes: receiving what the escape encoder emits is taking the bytes one after another
(42_packet_decoder.md R155), and where in a frame each byte stands (41_packet_encoder.md R131). -/

namespace Sys2Proof.Machine

/-! ### Logical bytes one after another -/

/-- Logical bytes taken one after another. -/
def acceptAll : List Byte → State → Host.Outcome State Fault Refusal
  | [], s => .next s
  | v :: vs, s => andThen (acceptLogical v s) (acceptAll vs)

theorem acceptAll_append (a b : List Byte) (s : State) :
    acceptAll (a ++ b) s = andThen (acceptAll a s) (acceptAll b) := by
  induction a generalizing s with
  | nil => rfl
  | cons v a ih =>
    simp only [List.cons_append, acceptAll]
    cases acceptLogical v s with
    | next t => exact ih t
    | fault r => rfl
    | refused r => rfl

theorem acceptAll_singleton (v : Byte) (s : State) : acceptAll [v] s = acceptLogical v s := by
  simp only [acceptAll]
  cases acceptLogical v s <;> rfl

/-- The raw form of one byte, with no escape pending, is that byte. -/
theorem receiveAll_encodeByte {s : State} (hf : s.unEscaping = false) (b : Byte) :
    receiveAll (encodeByte b) s = acceptLogical b s := by
  have last : ∀ o : Host.Outcome State Fault Refusal, andThen o (receiveAll []) = o := fun o => by cases o <;> rfl
  obtain ⟨h7E, h7D, e⟩ | ⟨x, hx, hb, e⟩ := encodeByte_form b <;> rw [e]
  · rw [receiveAll_cons, last, receiveRaw_literal hf h7E h7D]
  · have h7D : x ≠ 0x7D#8 := by rcases hx with rfl | rfl <;> decide
    rw [receiveAll_cons, receiveRaw_7D, andThen_next, receiveAll_cons, last, receiveRaw_unescaped rfl h7D, hb]
    exact congrArg (acceptLogical b) (unEscaping_eta hf)

/-- What the escape encoder emits is taken as the bytes it was made of. -/
theorem receiveAll_encodeBytes {s : State} (hf : s.unEscaping = false) (bs : List Byte) :
    receiveAll (encodeBytes bs) s = acceptAll bs s := by
  induction bs generalizing s with
  | nil => rfl
  | cons b bs ih =>
    rw [encodeBytes_cons, receiveAll_append, receiveAll_encodeByte hf, acceptAll]
    cases e : acceptLogical b s with
    | next t => exact ih ((acceptLogical_keeps e).unEscaping.trans hf)
    | fault r => rfl
    | refused r => rfl

/-- Where raw bytes of the encoder are cut off: between two logical bytes, or after an escape. -/
theorem take_encodeBytes (bs : List Byte) {j : Nat} (hj : j < (encodeBytes bs).length) :
    ∃ n < bs.length, (encodeBytes bs).take j = encodeBytes (bs.take n) ∨
      (encodeBytes bs).take j = encodeBytes (bs.take n) ++ [0x7D#8] := by
  induction bs generalizing j with
  | nil => exact absurd hj (Nat.not_lt_zero j)
  | cons b bs ih =>
    have later : ∀ m, j = (encodeByte b).length + m → ∃ n < (b :: bs).length,
        (encodeBytes (b :: bs)).take j = encodeBytes ((b :: bs).take n) ∨
        (encodeBytes (b :: bs)).take j = encodeBytes ((b :: bs).take n) ++ [0x7D#8] := by
      rintro m rfl
      obtain ⟨n, hn, h⟩ := ih (j := m) (by simpa using hj)
      exact ⟨n + 1, Nat.succ_lt_succ hn, by simpa [List.take_length_add_append] using h⟩
    obtain ⟨-, -, e⟩ | ⟨x, -, -, e⟩ := encodeByte_form b <;> rw [e] at later
    · match j, later with
      | 0, _ => exact ⟨0, Nat.succ_pos _, .inl rfl⟩
      | j + 1, later => exact later j (Nat.add_comm j 1)
    · match j, later with
      | 0, _ => exact ⟨0, Nat.succ_pos _, .inl rfl⟩
      | 1, _ => exact ⟨0, Nat.succ_pos _, .inr (by rw [encodeBytes_cons, e]; rfl)⟩
      | j + 2, later => exact later j (Nat.add_comm j 2)

/-! ### The bytes of a frame by their position -/

/-- The logical byte at position `n` of a frame. -/
def frameByte (crcOn : Bool) (cmd : Byte) (p : List Byte) (n : Nat) : Byte :=
  (frameLogical crcOn cmd p).getD n 0#8

theorem headerSize_or (n : Nat) : headerSize n = 2 ∨ headerSize n = 3 := by
  unfold headerSize
  split <;> simp

theorem headerSize_short {n : Nat} (h : n < 128) : headerSize n = 2 := if_pos h

theorem headerSize_long {n : Nat} (h : 128 ≤ n) : headerSize n = 3 := if_neg (by omega)

section
variable {crcOn : Bool} {cmd : Byte} {p : List Byte}

theorem frameByte_zero : frameByte crcOn cmd p 0 = cmd := rfl

variable (hp : p.length ≤ 32767)
include hp

theorem toNat_ofNat_length : (BitVec.ofNat 16 p.length).toNat = p.length := by
  rw [BitVec.toNat_ofNat]
  omega

/-- The short form: the first length byte is the length. -/
theorem frameByte_one_short (h : p.length < 128) :
    frameByte crcOn cmd p 1 = byteWithBit7Clear (BitVec.ofNat 7 p.length) := by
  have hn := toNat_ofNat_length hp
  rw [frameByte, frameLogical, frameBody, lengthBytes_short (by omega), lo8_eq_byteWithBit7Clear (by omega), hn]
  rfl

theorem lengthBytes_ofNat_long (h : 128 ≤ p.length) : lengthBytes (BitVec.ofNat 16 p.length) =
    [byteWithBit7Set (BitVec.ofNat 7 (p.length / 256)), BitVec.ofNat 8 (p.length % 256)] := by
  have hn := toNat_ofNat_length hp
  rw [lengthBytes_long_of_le (by omega) (by omega), hn]

theorem frameByte_one_long (h : 128 ≤ p.length) :
    frameByte crcOn cmd p 1 = byteWithBit7Set (BitVec.ofNat 7 (p.length / 256)) := by
  rw [frameByte, frameLogical, frameBody, lengthBytes_ofNat_long hp h]
  rfl

theorem frameByte_two_long (h : 128 ≤ p.length) :
    frameByte crcOn cmd p 2 = BitVec.ofNat 8 (p.length % 256) := by
  rw [frameByte, frameLogical, frameBody, lengthBytes_ofNat_long hp h]
  rfl

/-- After the header stands the payload. -/
theorem frameByte_payload {n : Nat} (h : headerSize p.length ≤ n) (hn : n < headerSize p.length + p.length) :
    frameByte crcOn cmd p n = p.getD (n - headerSize p.length) 0#8 := by
  have hheader : (cmd :: lengthBytes (BitVec.ofNat 16 p.length)).length = headerSize p.length :=
    lengthBytes_length hp
  rw [frameByte, frameLogical, List.getD_append _ _ _ _ (by rw [frameBody_length cmd hp]; exact hn), frameBody,
    List.getD_append_right _ _ _ _ (by rw [hheader]; exact h), hheader]

theorem headerLengthOf_frameByte_one : (headerLengthOf (frameByte crcOn cmd p 1)).toNat = headerSize p.length := by
  by_cases h : p.length < 128
  · rw [frameByte_one_short hp h, headerLengthOf_short (bit7_byteWithBit7Clear _), headerSize_short h]
    rfl
  · have h : 128 ≤ p.length := by omega
    rw [frameByte_one_long hp h, headerLengthOf_long (bit7_byteWithBit7Set _), headerSize_long h]
    rfl

theorem firstLengthOf_frameByte_one_short (h : p.length < 128) :
    (firstLengthOf (frameByte crcOn cmd p 1)).toNat = p.length := by
  rw [frameByte_one_short hp h, firstLengthOf_byteWithBit7Clear, BitVec.toNat_ofNat]
  omega

theorem firstLengthOf_frameByte_one_long (h : 128 ≤ p.length) :
    (firstLengthOf (frameByte crcOn cmd p 1)).toNat = 256 * (p.length / 256) := by
  rw [frameByte_one_long hp h, firstLengthOf_byteWithBit7Set, BitVec.toNat_ofNat]
  omega

end

/-- The last two bytes of a frame with CRC make the residue zero (R193). -/
theorem crc16_frameLogical (cmd : Byte) (p : List Byte) : crc16 (frameLogical true cmd p) = 0#16 :=
  (residueIsZeroExactlyForTheRightCrc (frameBody cmd p) _ _).2 ⟨rfl, rfl⟩

end Sys2Proof.Machine
end

section
/-! PROOFS. A correct frame received byte by byte (42_packet_decoder.md R168): what the decoder holds after each of its logical
bytes, kept by every byte and turned into a delivery by the last one. -/

namespace Sys2Proof.Machine

open Sys2Proof.Safety

theorem length_le_32767 {s : State} {p : List Byte} (hfit : p.length ≤ s.maxLen) : p.length ≤ 32767 :=
  hfit.trans (Nat.le_of_lt_succ s.cfg.maxPayloadLength.isLt)

theorem bytesReceived_eq_ofNat {s : State} {n : Nat} (h : s.bytesReceived.toNat = n) :
    s.bytesReceived = BitVec.ofNat 16 n := by
  rw [← h, BitVec.ofNat_toNat, BitVec.setWidth_eq]

/-! ### What the decoder holds after `n` logical bytes of the frame -/

/-- Since `s`, where the frame began, the decoder `u` has taken `n` logical bytes of the frame of `cmd` and `p`; the count
itself is not part of this, since a byte is taken before it is counted. -/
structure FrameContent (s : State) (cmd : Byte) (p : List Byte) (n : Nat) (u : State) : Prop where
  crc : u.rxCrc = crc16 ((frameLogical s.crcEnabled cmd p).take n)
  events : u.events = s.events
  flag : u.unEscaping = false
  drop : u.rxDrop = false
  outside : DecoderKeeps s u
  headerOr : u.headerLength = 2#2 ∨ u.headerLength = 3#2
  command : 1 ≤ n → u.packetCmd = cmd
  header : 2 ≤ n → u.headerLength.toNat = headerSize p.length
  highPart : n = 2 → 128 ≤ p.length → u.payloadLength.toNat = 256 * (p.length / 256)
  length : 2 ≤ n → headerSize p.length ≤ n → u.payloadLength.toNat = p.length
  stored : ∀ k, u.payloadByte k =
    if k < p.length ∧ headerSize p.length + k < n then p.getD k 0#8 else s.payloadByte k

section
variable {s u : State} {cmd : Byte} {p : List Byte} {n : Nat}

/-- A decoder at the start of a frame holds nothing of it yet. -/
theorem FrameContent.start (crc : u.rxCrc = 0xFFFF#16) (events : u.events = s.events) (flag : u.unEscaping = false)
    (drop : u.rxDrop = false) (outside : DecoderKeeps s u) (headerOr : u.headerLength = 2#2 ∨ u.headerLength = 3#2)
    (payload : u.payload = s.payload) : FrameContent s cmd p 0 u where
  crc := crc
  events := events
  flag := flag
  drop := drop
  outside := outside
  headerOr := headerOr
  command := nofun
  header := nofun
  highPart := nofun
  length := nofun
  stored k := by rw [if_neg (by omega)]; exact State.payloadByte_congr payload outside.resetCount k

/-- The count is no part of the content. -/
theorem FrameContent.withCount (h : FrameContent s cmd p n u) (b : Word16) :
    FrameContent s cmd p n { u with bytesReceived := b } where
  crc := h.crc
  events := h.events
  flag := h.flag
  drop := h.drop
  outside := h.outside.trans ⟨rfl, rfl, rfl, rfl, rfl, rfl, rfl⟩
  headerOr := h.headerOr
  command := h.command
  header := h.header
  highPart := h.highPart
  length := h.length
  stored := h.stored

theorem DecoderKeeps.maxLen (h : DecoderKeeps s u) : u.maxLen = s.maxLen := by
  rw [State.maxLen, State.maxLen, h.cfg]

theorem updateByPhase_outside (v : Byte) (u : State) : DecoderKeeps u (updateByPhase v u) := by
  rw [updateByPhase_eq]
  exact ⟨rfl, rfl, rfl, rfl, rfl, rfl, rfl⟩

/-- The next byte of the frame, from what its phase makes of the header and the buffer: the rest is the same in every phase. -/
theorem FrameContent.next (h : FrameContent s cmd p n u) (hn : n < (frameLogical s.crcEnabled cmd p).length)
    (hd : u.phase ≠ .drop) {w : State} (hw : updateByPhase (frameByte s.crcEnabled cmd p n) u = w)
    (headerOr : w.headerLength = 2#2 ∨ w.headerLength = 3#2) (command : w.packetCmd = cmd)
    (header : 1 ≤ n → w.headerLength.toNat = headerSize p.length)
    (highPart : n = 1 → 128 ≤ p.length → w.payloadLength.toNat = 256 * (p.length / 256))
    (length : 1 ≤ n → headerSize p.length ≤ n + 1 → w.payloadLength.toNat = p.length)
    (stored : ∀ k, w.payloadByte k =
      if k < p.length ∧ headerSize p.length + k < n + 1 then p.getD k 0#8 else s.payloadByte k) :
    FrameContent s cmd p (n + 1) w := by
  subst hw
  refine ⟨?_, ?_, ?_, ?_, h.outside.trans (updateByPhase_outside _ u), headerOr, fun _ => command,
    fun h2 => header (by omega), fun h2 => highPart (by omega), fun h2 => length (by omega), stored⟩
  · rw [updateByPhase_rxCrc hd, h.crc, List.take_succ_eq_append_getElem hn, crc16_append, crcFold_cons, crcFold_nil,
      frameByte, List.getD_eq_getElem _ _ hn]
  · rw [updateByPhase_events, h.events]
  · rw [updateByPhase_unEscaping, h.flag]
  · rw [updateByPhase_rxDrop, h.drop]

/-- A phase that does not store leaves the stored bytes, where the frame's next byte is no payload byte. -/
theorem FrameContent.stored_of_same (h : FrameContent s cmd p n u) {w : State} (hp : w.payload = u.payload)
    (hr : w.resetCount = u.resetCount) (hn : n < headerSize p.length ∨ headerSize p.length + p.length ≤ n) (k : Nat) :
    w.payloadByte k = if k < p.length ∧ headerSize p.length + k < n + 1 then p.getD k 0#8 else s.payloadByte k := by
  rw [State.payloadByte_congr hp hr, h.stored]
  exact if_congr (by omega) rfl rfl

/-! ### The next byte, position by position -/

theorem FrameContent.next_command (h : FrameContent s cmd p 0 u) (hc : u.bytesReceived.toNat = 0)
    (hn : 0 < (frameLogical s.crcEnabled cmd p).length) :
    u.phase = .idle ∧ FrameContent s cmd p 1 (updateByPhase (frameByte s.crcEnabled cmd p 0) u) := by
  have hp : u.phase = .idle := phase_eq_idle.2 ⟨h.drop, bytesReceived_eq_ofNat hc⟩
  have hsize := headerSize_or p.length
  refine ⟨hp, h.next hn (by simp [hp]) rfl ?_ ?_ nofun nofun nofun ?_⟩ <;> rw [updateByPhase_idle hp]
  · exact h.headerOr
  · rw [takeCommand_packetCmd, frameByte_zero]
  · exact h.stored_of_same rfl rfl (by omega)

theorem FrameContent.next_first (h : FrameContent s cmd p 1 u) (hc : u.bytesReceived.toNat = 1)
    (hn : 1 < (frameLogical s.crcEnabled cmd p).length) (hfit : p.length ≤ 32767) :
    u.phase = .len1 ∧ FrameContent s cmd p 2 (updateByPhase (frameByte s.crcEnabled cmd p 1) u) := by
  have hp : u.phase = .len1 := phase_eq_len1.2 ⟨h.drop, bytesReceived_eq_ofNat hc⟩
  have hsize := headerSize_or p.length
  refine ⟨hp, h.next hn (by simp [hp]) rfl ?_ ?_ (fun _ => ?_) (fun _ hlong => ?_) (fun _ hle => ?_) ?_⟩ <;>
    rw [updateByPhase_len1 hp]
  · exact headerLengthOf_or _
  · exact h.command le_rfl
  · exact headerLengthOf_frameByte_one hfit
  · exact firstLengthOf_frameByte_one_long hfit hlong
  · refine firstLengthOf_frameByte_one_short hfit ?_
    by_contra hlong
    rw [headerSize_long (by omega)] at hle
    omega
  · exact h.stored_of_same rfl rfl (by omega)

theorem FrameContent.next_second (h : FrameContent s cmd p 2 u) (hc : u.bytesReceived.toNat = 2)
    (hn : 2 < (frameLogical s.crcEnabled cmd p).length) (hfit : p.length ≤ 32767) (hlong : 128 ≤ p.length) :
    u.phase = .len2 ∧ FrameContent s cmd p 3 (updateByPhase (frameByte s.crcEnabled cmd p 2) u) := by
  have hsize := headerSize_long hlong
  have hhead : u.headerLength = 3#2 := BitVec.eq_of_toNat_eq ((h.header le_rfl).trans hsize)
  have hp : u.phase = .len2 := phase_eq_len2.2 ⟨h.drop, bytesReceived_eq_ofNat hc, hhead⟩
  have hhigh := h.highPart rfl hlong
  refine ⟨hp, h.next hn (by simp [hp]) rfl ?_ ?_ (fun _ => ?_) nofun (fun _ _ => ?_) ?_⟩ <;> rw [updateByPhase_len2 hp]
  · exact h.headerOr
  · exact h.command (by decide)
  · exact h.header le_rfl
  · have hlow : (frameByte s.crcEnabled cmd p 2).toNat = p.length % 256 := by
      rw [frameByte_two_long hfit hlong, BitVec.toNat_ofNat]
      omega
    rw [takeSecondLength_payloadLength, foldRxCrc_payloadLength, addLength_toNat _ (by omega), hhigh, hlow]
    omega
  · exact h.stored_of_same rfl rfl (by omega)

theorem FrameContent.next_payload (h : FrameContent s cmd p n u) (hc : u.bytesReceived.toNat = n)
    (hn : n < (frameLogical s.crcEnabled cmd p).length) (hfit : p.length ≤ 32767) (hle : headerSize p.length ≤ n)
    (hlt : n < headerSize p.length + p.length) :
    (u.phase = .payload ∧ u.payloadIndex < p.length) ∧
      FrameContent s cmd p (n + 1) (updateByPhase (frameByte s.crcEnabled cmd p n) u) := by
  have hsize := headerSize_or p.length
  have hhead := h.header (by omega)
  have hlen := h.length (by omega) hle
  have hi : u.payloadIndex = n - headerSize p.length := by rw [State.payloadIndex, hc, hhead]
  have hp : u.phase = .payload := phase_eq_payload h.drop (by omega) (by omega) (by omega)
  refine ⟨⟨hp, by omega⟩, h.next hn (by simp [hp]) rfl ?_ ?_ (fun _ => ?_) (by omega) (fun _ _ => ?_) fun k => ?_⟩ <;>
    rw [updateByPhase_payload hp]
  · exact h.headerOr
  · exact h.command (by omega)
  · exact hhead
  · exact hlen
  · by_cases hk : k = u.payloadIndex
    · rw [if_pos (by omega), hk, State.payloadByte_written (s := u) rfl, frameByte_payload hfit hle hlt, hi]
    · refine (State.payloadByte_other (s := u) (by exact rfl) (by exact rfl) hk).trans ?_
      rw [h.stored]
      exact if_congr (by omega) rfl rfl

theorem FrameContent.next_crc (h : FrameContent s cmd p n u) (hc : u.bytesReceived.toNat = n)
    (hn : n < (frameLogical s.crcEnabled cmd p).length) (hfit : p.length ≤ 32767)
    (hle : headerSize p.length + p.length ≤ n) :
    u.phase = .crc ∧ FrameContent s cmd p (n + 1) (updateByPhase (frameByte s.crcEnabled cmd p n) u) := by
  have hsize := headerSize_or p.length
  have hhead := h.header (by omega)
  have hlen := h.length (by omega) (by omega)
  have hon : s.crcEnabled = true := by
    by_contra hoff
    rw [frameLogical_length _ _ hfit, crcLength, if_neg hoff] at hn
    omega
  have hp : u.phase = .crc := by
    rw [frameLogical_length _ _ hfit, hon] at hn
    simp only [crcLength, if_true] at hn
    refine phase_eq_crc h.drop (by omega) (by omega) ?_ (h.outside.crcEnabled.trans hon) (by omega)
    rw [State.payloadIndex]
    omega
  refine ⟨hp, h.next hn (by simp [hp]) rfl ?_ ?_ (fun _ => ?_) (by omega) (fun _ _ => ?_) ?_⟩ <;>
    rw [updateByPhase_crc hp]
  · exact h.headerOr
  · exact h.command (by omega)
  · exact hhead
  · exact hlen
  · exact h.stored_of_same rfl rfl (by omega)

/-- The next byte of the frame is neither dropped nor past the buffer, whatever its position. -/
theorem FrameContent.next_byte (h : FrameContent s cmd p n u) (hc : u.bytesReceived.toNat = n)
    (hn : n < (frameLogical s.crcEnabled cmd p).length) (hfit : p.length ≤ s.maxLen) :
    acceptLogical (frameByte s.crcEnabled cmd p n) u =
        .next (endByte (updateByPhase (frameByte s.crcEnabled cmd p n) u)) ∧
      FrameContent s cmd p (n + 1) (updateByPhase (frameByte s.crcEnabled cmd p n) u) := by
  have hmax := h.outside.maxLen
  have h15 := length_le_32767 hfit
  have hsize := headerSize_or p.length
  have notPayload : ∀ {ph : Phase}, u.phase = ph → ph ≠ .drop → ph ≠ .payload →
      acceptLogical (frameByte s.crcEnabled cmd p n) u =
        .next (endByte (updateByPhase (frameByte s.crcEnabled cmd p n) u)) :=
    fun hp hd hne => acceptLogical_update (hp ▸ hd) (fun h => absurd (hp.symm.trans h) hne) _
  match n, hc with
  | 0, hc => exact (h.next_command hc hn).imp_left fun hp => notPayload hp (by decide) (by decide)
  | 1, hc => exact (h.next_first hc hn h15).imp_left fun hp => notPayload hp (by decide) (by decide)
  | n + 2, hc =>
    by_cases hheader : headerSize p.length ≤ n + 2
    · by_cases hlt : n + 2 < headerSize p.length + p.length
      · exact (h.next_payload hc hn h15 hheader hlt).imp_left fun hp =>
          acceptLogical_update (by simp [hp.1]) (fun _ => by omega) _
      · exact (h.next_crc hc hn h15 (by omega)).imp_left fun hp => notPayload hp (by decide) (by decide)
    · obtain rfl : n = 0 := by omega
      have hlong : 128 ≤ p.length := by
        by_contra hshort
        rw [headerSize_short (by omega)] at hheader
        omega
      exact (h.next_second hc hn h15 hlong).imp_left fun hp => notPayload hp (by decide) (by decide)

/-! ### The whole frame -/

/-- The count reaches the decoder's total exactly at the end of the frame. -/
theorem FrameContent.total_iff (h : FrameContent s cmd p n u) (h1 : 1 ≤ n) (hfit : p.length ≤ 32767)
    (hn : n ≤ (frameLogical s.crcEnabled cmd p).length) :
    n = u.total ↔ n = (frameLogical s.crcEnabled cmd p).length := by
  have hsize := headerSize_or p.length
  have hhead := headerLength_toNat h.headerOr
  rw [frameLogical_length _ _ hfit] at hn ⊢
  rw [State.total, h.outside.crcEnabled]
  by_cases h2 : 2 ≤ n
  · have hheader := h.header h2
    by_cases hle : headerSize p.length ≤ n
    · rw [hheader, h.length h2 hle]
      omega
    · omega
  · omega

/-- One more byte of the frame: the last one completes it. -/
theorem FrameContent.step (h : FrameContent s cmd p n u) (hc : u.bytesReceived.toNat = n)
    (hn : n < (frameLogical s.crcEnabled cmd p).length) (hfit : p.length ≤ s.maxLen) :
    ∃ w, FrameContent s cmd p (n + 1) w ∧ w.bytesReceived.toNat = n + 1 ∧
      acceptLogical (frameByte s.crcEnabled cmd p n) u =
        .next (if n + 1 = (frameLogical s.crcEnabled cmd p).length then completeFrame w else w) := by
  obtain ⟨e, hw⟩ := h.next_byte hc hn hfit
  have h15 := length_le_32767 hfit
  have hsize := headerSize_or p.length
  have hlen := frameLogical_length s.crcEnabled cmd h15
  have hcrc : crcLength s.crcEnabled ≤ 2 := by cases s.crcEnabled <;> decide
  have hcount : (updateByPhase (frameByte s.crcEnabled cmd p n) u).bytesReceived.toNat = n := by
    rw [updateByPhase_bytesReceived, hc]
  generalize updateByPhase (frameByte s.crcEnabled cmd p n) u = w at e hw hcount
  have htotal := hw.total_iff (by omega) h15 hn
  refine ⟨_, hw.withCount (w.bytesReceived + 1#16), ?_, ?_⟩
  · rw [BitVec.toNat_add, hcount, BitVec.toNat_ofNat]
    omega
  · rw [e, endByte_counted, hcount]
    · simp only [htotal]
    · omega
    · intro hend
      have hhead := headerLength_toNat hw.headerOr
      rw [hcount] at hend
      rw [hw.length (by omega) (by rw [hend, hw.header (by omega)]), hw.outside.maxLen]
      exact hfit

/-- All but the last bytes of the frame, taken from its start, raise nothing. -/
theorem acceptAll_take (h : FrameContent s cmd p 0 u) (hc : u.bytesReceived = 0#16) (hfit : p.length ≤ s.maxLen)
    (hn : n < (frameLogical s.crcEnabled cmd p).length) :
    ∃ w, acceptAll ((frameLogical s.crcEnabled cmd p).take n) u = .next w ∧ FrameContent s cmd p n w ∧
      w.bytesReceived.toNat = n := by
  induction n with
  | zero => exact ⟨u, rfl, h, by rw [hc]; rfl⟩
  | succ n ih =>
    have hlt := Nat.lt_of_succ_lt hn
    obtain ⟨w, hw, hcontent, hcount⟩ := ih hlt
    obtain ⟨x, hx, hxcount, hstep⟩ := hcontent.step hcount hlt hfit
    rw [if_neg (by omega), frameByte, List.getD_eq_getElem _ _ hlt] at hstep
    exact ⟨x, by rw [List.take_succ_eq_append_getElem hlt, acceptAll_append, hw, andThen_next, acceptAll_singleton, hstep],
      hx, hxcount⟩

/-- The whole frame, taken from its start, is completed by its last byte. -/
theorem acceptAll_frameLogical (h : FrameContent s cmd p 0 u) (hc : u.bytesReceived = 0#16)
    (hfit : p.length ≤ s.maxLen) :
    ∃ w, acceptAll (frameLogical s.crcEnabled cmd p) u = .next (completeFrame w) ∧
      FrameContent s cmd p (frameLogical s.crcEnabled cmd p).length w := by
  obtain ⟨n, hn⟩ : ∃ n, (frameLogical s.crcEnabled cmd p).length = n + 1 := ⟨_, rfl⟩
  have hlt : n < (frameLogical s.crcEnabled cmd p).length := by omega
  obtain ⟨w, hw, hcontent, hcount⟩ := acceptAll_take h hc hfit hlt
  obtain ⟨x, hx, -, hstep⟩ := hcontent.step hcount hlt hfit
  rw [if_pos hn.symm, frameByte, List.getD_eq_getElem _ _ hlt] at hstep
  refine ⟨x, ?_, by rwa [hn]⟩
  rw [← List.take_length (l := frameLogical s.crcEnabled cmd p), hn, List.take_succ_eq_append_getElem hlt,
    acceptAll_append, hw, andThen_next, acceptAll_singleton, hstep]

end

end Sys2Proof.Machine
end

section
/-! PROOFS. What becomes of a frame at a receiver (42_packet_decoder.md R168 to R172, 70_reset_and_hazards.md R262, R266). -/

namespace Sys2Proof.Machine

open Sys2Proof.Safety

/-! ### Delivery -/

/-- Since `s` the packet of `cmd` and `p` was delivered, and the decoder `t` is idle. -/
structure Delivered (s : State) (cmd : Byte) (p : List Byte) (t : State) : Prop where
  events : t.events = s.events ++ [.rxPacket cmd (BitVec.ofNat 16 p.length)]
  stored : ∀ k, k < p.length → t.payloadByte k = p.getD k 0#8
  kept : ∀ k, p.length ≤ k → t.payloadByte k = s.payloadByte k
  packetCmd : t.packetCmd = cmd
  payloadLength : t.payloadLength.toNat = p.length
  bytesReceived : t.bytesReceived = 0#16
  rxCrc : t.rxCrc = 0xFFFF#16
  drop : t.rxDrop = false
  flag : t.unEscaping = false
  bytesRead : t.bytesRead = 0#16
  bytesWritten : t.bytesWritten = 0#16
  headerOr : t.headerLength = 2#2 ∨ t.headerLength = 3#2
  outside : DecoderKeeps s t

section
variable {s u w : State} {cmd : Byte} {p : List Byte}

/-- With all of the frame taken, the residue is zero where there is a CRC. -/
theorem FrameContent.completionEvent_eq
    (h : FrameContent s cmd p (frameLogical s.crcEnabled cmd p).length w) (h15 : p.length ≤ 32767) :
    completionEvent w = .rxPacket cmd (BitVec.ofNat 16 p.length) := by
  have hsize := headerSize_or p.length
  have hn := frameLogical_length s.crcEnabled cmd h15
  have hlen := h.length (by omega) (by omega)
  have hcrc := h.crc
  rw [List.take_length] at hcrc
  rw [completionEvent_eq_ite, if_neg, h.command (by omega), ← hlen, BitVec.ofNat_toNat, BitVec.setWidth_eq]
  rintro ⟨hon, hne⟩
  rw [h.outside.crcEnabled] at hon
  rw [hon, crc16_frameLogical] at hcrc
  exact hne hcrc

theorem FrameContent.delivered (h : FrameContent s cmd p (frameLogical s.crcEnabled cmd p).length w)
    (h15 : p.length ≤ 32767) : Delivered s cmd p (completeFrame w) := by
  have hsize := headerSize_or p.length
  have hn := frameLogical_length s.crcEnabled cmd h15
  have hread : ∀ k, (completeFrame w).payloadByte k = if k < p.length then p.getD k 0#8 else s.payloadByte k := by
    intro k
    refine (State.payloadByte_congr (completeFrame_payload w) (completeFrame_resetCount w) k).trans ?_
    rw [h.stored]
    exact if_congr (by omega) rfl rfl
  exact {
    events := by rw [completeFrame_events, h.completionEvent_eq h15, h.events]
    stored := fun k hk => by rw [hread, if_pos hk]
    kept := fun k hk => by rw [hread, if_neg (by omega)]
    packetCmd := h.command (by omega)
    payloadLength := h.length (by omega) (by omega)
    bytesReceived := rfl
    rxCrc := rfl
    drop := h.drop
    flag := h.flag
    bytesRead := rfl
    bytesWritten := rfl
    headerOr := h.headerOr
    outside := h.outside.trans ⟨rfl, rfl, rfl, rfl, rfl, rfl, rfl⟩ }

/-- From the start of a frame its bytes after the boundary deliver it. -/
theorem receiveAll_frame_tail (h : FrameContent s cmd p 0 u) (hc : u.bytesReceived = 0#16) (hfit : p.length ≤ s.maxLen) :
    ∃ t, receiveAll (frame s.crcEnabled cmd p).tail u = .next t ∧ Delivered s cmd p t := by
  obtain ⟨w, hw, hcontent⟩ := acceptAll_frameLogical h hc hfit
  exact ⟨_, (receiveAll_encodeBytes h.flag _).trans hw, hcontent.delivered (length_le_32767 hfit)⟩

variable (hf : s.unEscaping = false) (hh : s.headerLength = 2#2 ∨ s.headerLength = 3#2)
include hf hh

/-- A boundary begins the frame, whatever the decoder was at. -/
theorem FrameContent.boundary : FrameContent s cmd p 0 (boundaryReset s) :=
  .start rfl rfl hf rfl ⟨rfl, rfl, rfl, rfl, rfl, rfl, rfl⟩ hh rfl

theorem receiveAll_frame (cmd : Byte) (hfit : p.length ≤ s.maxLen) :
    ∃ t, receiveAll (frame s.crcEnabled cmd p) s = .next t ∧ Delivered s cmd p t := by
  rw [frame, receiveAll_cons, receiveRaw_boundary hf, andThen_next]
  exact receiveAll_frame_tail (.boundary hf hh) rfl hfit

/-- Cut off anywhere before its last raw byte, the frame raises nothing. -/
theorem receiveAll_frame_take (cmd : Byte) (hfit : p.length ≤ s.maxLen) {k : Nat}
    (hk : k < (frame s.crcEnabled cmd p).length) :
    ∃ u, receiveAll ((frame s.crcEnabled cmd p).take k) s = .next u ∧ u.events = s.events := by
  cases k with
  | zero => exact ⟨s, rfl, rfl⟩
  | succ j =>
    obtain ⟨n, hn, hcut⟩ := take_encodeBytes (frameLogical s.crcEnabled cmd p) (j := j)
      (by simpa [frame] using hk)
    have hstart : FrameContent s cmd p 0 (boundaryReset s) := .boundary hf hh
    obtain ⟨u, hu, hcontent, -⟩ := acceptAll_take hstart rfl hfit hn
    rw [← receiveAll_encodeBytes hstart.flag] at hu
    rw [frame, List.take_succ_cons, receiveAll_cons, receiveRaw_boundary hf, andThen_next]
    obtain hcut | hcut := hcut <;> rw [hcut]
    · exact ⟨u, hu, hcontent.events⟩
    · refine ⟨{ u with unEscaping := true }, ?_, hcontent.events⟩
      rw [receiveAll_append, hu, andThen_next, receiveAll_cons, receiveRaw_7D]
      rfl

end

/-- Settles O31: the frame's last byte delivers it, and cut off before that it raises nothing. -/
theorem correctFrameIsDeliveredExactlyOnce : Obligations.CorrectFrameIsDeliveredExactlyOnce := by
  intro cmd p s hf hh hfit
  obtain ⟨t, e, h⟩ := receiveAll_frame hf hh cmd hfit
  exact ⟨⟨t, e, h.events, h.stored, h.kept, h.packetCmd, h.payloadLength, h.bytesReceived, h.rxCrc, h.drop, h.flag,
    h.bytesRead, h.bytesWritten, h.outside.emitted, h.outside.txCrc⟩,
    fun k hk => receiveAll_frame_take hf hh cmd hfit hk⟩

/-- Settles O32: a fresh phase IDLE is the start of a frame already. -/
theorem leadingBoundaryIsNotRequired : Obligations.LeadingBoundaryIsNotRequired := by
  intro cmd p s hf hd h0 hk hh hfit
  have hstart : FrameContent s cmd p 0 s := .start hk rfl hf hd (.refl s) hh rfl
  obtain ⟨t, e, h⟩ := receiveAll_frame_tail hstart h0 hfit
  exact ⟨t, e, h.events, h.stored⟩

/-- Settles O33: after the first delivery the decoder is one that the second frame finds as the first did. -/
theorem backToBackFramesAreBothDelivered : Obligations.BackToBackFramesAreBothDelivered := by
  intro cmd cmd' p p' s hf hh hfit hfit'
  obtain ⟨t, e, h⟩ := receiveAll_frame hf hh cmd hfit
  obtain ⟨t', e', h'⟩ := receiveAll_frame h.flag h.headerOr cmd' (h.outside.maxLen.symm ▸ hfit')
  rw [h.outside.crcEnabled] at e'
  exact ⟨t', by rw [receiveAll_append, e, andThen_next, e'], by rw [h'.events, h.events, List.append_assoc]; rfl⟩

/-! ### From one MFC to another -/

/-- What TX.FRAME emits is the frame in closed form (R131). -/
theorem exec_txFrame_emits_frame {a : State} (hfit : a.bytesWritten.toNat ≤ a.maxLen) (cmd : Byte) :
    ∃ a', exec (.txFrame cmd) a = .next a' ∧ a'.emitted = a.emitted ++
      frame a.crcEnabled cmd ((List.range a.bytesWritten.toNat).map a.payloadByte) := by
  refine ⟨_, txFrameEmitsTheWholeFrame cmd a hfit, ?_⟩
  simp [frame, frameLogical, frameBody, crcBytes]

/-- Settles O34: the bytes appended to the output are a correct frame for the receiver. -/
theorem sentPayloadArrivesAtTheOtherEnd : Obligations.SentPayloadArrivesAtTheOtherEnd := by
  intro cmd a b hfit hfitb hcrc hf hh
  obtain ⟨a', ea, hemit⟩ := exec_txFrame_emits_frame hfit cmd
  obtain ⟨b', eb, h⟩ := receiveAll_frame hf hh cmd (p := (List.range a.bytesWritten.toNat).map a.payloadByte)
    (by simpa using hfitb)
  refine ⟨a', b', ea, by rw [hemit, List.drop_left, hcrc, eb], by rw [h.events]; simp, fun k hk => ?_⟩
  rw [h.stored k (by simpa using hk)]
  simp [hk]

/-! ### A frame without CRC at a receiver with one (R262) -/

/-- Settles O35: to that receiver the frame without CRC is a frame cut off before its CRC, and the boundary discards it. -/
theorem frameWithoutCrcIsNeverDeliveredToACrcReceiver : Obligations.FrameWithoutCrcIsNeverDeliveredToACrcReceiver := by
  intro cmd p s hon hf hh hfit
  have hstart : FrameContent s cmd p 0 (boundaryReset s) := .boundary hf hh
  have hwhole : frameLogical s.crcEnabled cmd p = frameBody cmd p ++ crcBytes (crc16 (frameBody cmd p)) := by
    rw [hon]; rfl
  obtain ⟨u, hu, hcontent, -⟩ := acceptAll_take (n := (frameBody cmd p).length) hstart rfl hfit
    (by rw [hwhole, List.length_append]; exact Nat.lt_add_of_pos_right (Nat.succ_pos 1))
  rw [hwhole, List.take_left, ← receiveAll_encodeBytes hstart.flag] at hu
  refine ⟨boundaryReset u, ?_, hcontent.events, rfl, rfl⟩
  have hframe : frame false cmd p = 0x7E#8 :: encodeBytes (frameBody cmd p) := by simp [frame, frameLogical]
  rw [hframe, List.cons_append, receiveAll_cons, receiveRaw_boundary hf, andThen_next, receiveAll_append, hu,
    andThen_next, receiveAll_cons, receiveRaw_boundary hcontent.flag]
  rfl

/-! ### One corrupted byte (R266, C8) -/

/-- The events after an outcome that goes on. -/
def eventsAfter : Host.Outcome State Fault Refusal → Option (List Event)
  | .next t => some t.events
  | .fault _ => none
  | .refused _ => none

theorem next_of_eventsAfter {o : Host.Outcome State Fault Refusal} {es : List Event} (h : eventsAfter o = some es) :
    ∃ t, o = .next t ∧ t.events = es := by
  cases o with
  | next t => exact ⟨t, rfl, Option.some.inj h⟩
  | fault r => cases h
  | refused r => cases h

/-- The frame of 95_test_vectors.md T19 with its length byte 03 received as 00: the first two payload bytes are the CRC of the
corrupted header. -/
theorem eventsAfter_corruptedFrame :
    eventsAfter (receiveAll ((frame true 0xA1#8 [0x78#8, 0x20#8, 0x6C#8]).set 2 0x00#8) State.reset) =
      some [.rxPacket 0xA1#8 0#16] := by decide +kernel

/-- Settles O39: T19, at the decoder right after reset. -/
theorem oneCorruptedByteCanBeDelivered : Obligations.OneCorruptedByteCanBeDelivered := by
  obtain ⟨t, e, hev⟩ := next_of_eventsAfter eventsAfter_corruptedFrame
  exact ⟨0xA1#8, [0x78#8, 0x20#8, 0x6C#8], 2, 0x00#8, State.reset, t, resetStateMeetsTheInvariant, rfl, rfl, rfl,
    by decide, by decide, by decide +kernel, by decide +kernel, e, 0#16, by rw [hev]; exact List.mem_singleton_self _,
    by decide⟩

end Sys2Proof.Machine
end
